-- ==== Sys2Proof/Word.lean ====
section
/-!
DEFINITION. The word types of WMB-CODEC: bytes, the 16-bit fields of the wire and of the command word,
and the 32-bit registers. All values are unsigned (00_scope.md R10).
-/
namespace Sys2Proof

/-- A byte: 8 bits, bit 7 the most significant (00_scope.md R10). -/
abbrev Byte := BitVec 8

/-- A 16-bit value: a wire field, a checksum, `CW.LEN` (00_scope.md R7, R10). -/
abbrev Half := BitVec 16

/-- A 32-bit register: the command word and the result registers (10_state.md R26, R27). -/
abbrev Word := BitVec 32

end Sys2Proof
end

