-- ==== Sys2Proof/Config.lean ====
section
/-!
DEFINITION. What an instance of the block fixes when it is made, and the free values of the model:
opaque constants with no body, so that nothing in Lean can compute or prove a value of one.
-/
namespace Sys2Proof

/-- The parameters of one instance (00_scope.md R9): fixed when the instance is made and not written
at run time (60_exceptions.md R194). `IB_CAP` must be at least 1024, so what is held is how many bytes
it has beyond that: no value of the type breaks the rule. Log entry 2. -/
structure Config.Params where
  /-- `IB_CAP - 1024` -/
  ibCapExtra : Nat
  /-- `CMD_SET`: the command identifiers the length-prefixed codec accepts -/
  cmdSet : List Byte
  deriving DecidableEq, Repr

/-- FREE VALUE. The byte of `IB` at an index the host has not written since the given reset: "a value
nothing may be assumed of" (10_state.md R38, 93_implementation_defined.md U5). Arguments: the key of the
copy of the block (20_memory.md R62), how many resets came before, the index. DESIGN CHOICE, safe, log
entry 3; the key, log entry 13. -/
opaque Config.unwrittenInput : Nat → Nat → Nat → Byte

/-- FREE VALUE. The byte of `OB` at an index the block has not written since the given reset
(10_state.md R38, 93_implementation_defined.md U5), with the same arguments. DESIGN CHOICE, safe, log
entries 3 and 13. -/
opaque Config.unwrittenOutput : Nat → Nat → Nat → Byte

/-- FREE VALUE. What `crc` holds between operations (10_state.md R23). Arguments: the key of the copy of
the block, how many operations came before. This one and the six below: DESIGN CHOICE, safe, log entries
4 and 13. -/
opaque Config.idleCrc : Nat → Nat → Half

/-- FREE VALUE. What `idx`, a number in 0..1024 (10_state.md R22), holds between operations. -/
opaque Config.idleIdx : Nat → Nat → Fin 1025

/-- FREE VALUE. What the latched length `n` holds between operations (10_state.md R22, R23). -/
opaque Config.idleN : Nat → Nat → Half

/-- FREE VALUE. What the remainder length `m` holds between operations (10_state.md R22, R23). -/
opaque Config.idleM : Nat → Nat → Nat

/-- FREE VALUE. What `recv` holds between operations (10_state.md R22, R23). -/
opaque Config.idleRecv : Nat → Nat → Half

/-- FREE VALUE. What `comp` holds between operations (10_state.md R22, R23). -/
opaque Config.idleComp : Nat → Nat → Half

/-- FREE VALUE. What `L` holds between operations (10_state.md R22, R23). -/
opaque Config.idleLen : Nat → Nat → Half

end Sys2Proof
end

