-- ==== Sys2Proof/Machine/Constants.lean ====
section
/-!
DEFINITION. The constants the document fixes and those that follow from them (00_scope.md R7, R8), and
the default instance (00_scope.md R9). They are hard-wired and are not state (70_reset_and_hazards.md R203).
-/
namespace Sys2Proof.Machine

/-- `HEADER` (00_scope.md R7) -/
abbrev header : Byte := 0x47

/-- `VERSION` (00_scope.md R7) -/
abbrev version : Byte := 0x01

/-- `CRC_POLY`: x^16 + x^15 + x^2 + 1 without its x^16 term (00_scope.md R7, 40_crc.md R91) -/
def crcPoly : Half := 0x8005

/-- `CRC_INIT` (00_scope.md R7) -/
def crcInit : Half := 0x800D

/-- `MAX_FRAME`, the longest frame (00_scope.md R7), and `OB_CAP` with it (R9) -/
abbrev maxFrame : Nat := 1024

/-- `MAX_PAYLOAD_LP` (00_scope.md R7) -/
abbrev maxPayloadLP : Nat := 1017

/-- `MAX_MSG_SD` (00_scope.md R8) -/
abbrev maxMsgSD : Nat := 1022

/-- `MAX_EMBEDDED`, used by the payload builders only (00_scope.md R7) -/
abbrev maxEmbedded : Nat := 256

/-- `CRC_LEN` (00_scope.md R7) -/
abbrev crcLen : Nat := 2

/-- `ENVELOPE_LP` (00_scope.md R8) -/
abbrev envelopeLP : Nat := 7

/-- The five bytes header, version, command and length that come before the payload (30_encoding.md R78). -/
abbrev headLP : Nat := 5

/-- `MIN_DECODE` (00_scope.md R8) -/
abbrev minDecode : Nat := 2

/-- `IB_CAP`, the capacity of the input buffer, at least `MAX_FRAME` (00_scope.md R9). -/
def ibCap (p : Config.Params) : Nat := maxFrame + p.ibCapExtra

/-- `OB_CAP`, fixed at `MAX_FRAME` (00_scope.md R9). -/
abbrev obCap : Nat := maxFrame

/-- The instance with the default parameters: `IB_CAP = 1024`, `CMD_SET = 01..08` (00_scope.md R9). -/
def defaultParams : Config.Params where
  ibCapExtra := 0
  cmdSet := [0x01, 0x02, 0x03, 0x04, 0x05, 0x06, 0x07, 0x08]

end Sys2Proof.Machine
end

