-- ==== Sys2Proof/Machine/Crc.lean ====
section
/-!
DEFINITION. The Checksum Engine's function: the bit step, the byte step in its three equivalent forms,
and the checksum of a byte sequence (40_crc.md R92 to R95).
-/
namespace Sys2Proof.Machine

/-- The bit step of the direct, non-reflected form (40_crc.md R92): shift left by one, and XOR the
polynomial in exactly when the bit shifted out differs from the message bit. -/
def crcBit (r : Half) (b : Bool) : Half :=
  if r.getLsbD 15 ^^ b then (r <<< 1) ^^^ crcPoly else r <<< 1

/-- The bits of a byte in the order the engine takes them, bit 7 first (20_memory.md R55). -/
def byteBits (x : Byte) : List Bool :=
  [x.getLsbD 7, x.getLsbD 6, x.getLsbD 5, x.getLsbD 4, x.getLsbD 3, x.getLsbD 2, x.getLsbD 1, x.getLsbD 0]

/-- The byte step: the bit step over the eight bits from bit 7 down to bit 0 (40_crc.md R93). -/
def crcByte (r : Half) (x : Byte) : Half := (byteBits x).foldl crcBit r

/-- One shift of the second form (40_crc.md R93): the step with no message bit left to add. -/
def crcShift (t : Half) : Half := (t <<< 1) ^^^ (if t.getLsbD 15 then crcPoly else 0)

/-- The byte step, second form: XOR the byte into the top of the register, then shift eight times
(40_crc.md R93). -/
def crcByteShift (r : Half) (x : Byte) : Half :=
  crcShift (crcShift (crcShift (crcShift (crcShift (crcShift (crcShift (crcShift
    (r ^^^ (x.setWidth 16 <<< 8)))))))))

/-- The table entry `T[i]` (40_crc.md R94). -/
def crcTable (i : Byte) : Half := crcByte 0 i

/-- The byte step, table form (40_crc.md R94). -/
def crcByteTable (r : Half) (x : Byte) : Half :=
  (r <<< 8) ^^^ crcTable ((r >>> 8).setWidth 8 ^^^ x)

/-- The loop of the checksum from a given register value (40_crc.md R95, R96 a). -/
def crcFold (r : Half) (bs : List Byte) : Half := bs.foldl crcByte r

/-- The checksum of a byte sequence: the register starts at `0x800D`, takes the bytes in index order,
and is the result as it stands (40_crc.md R95, 10_state.md R21). -/
def crc16 (bs : List Byte) : Half := crcFold crcInit bs

end Sys2Proof.Machine
end

