-- ==== Sys2Proof/Machine/Flags.lean ====
section
/-!
DEFINITION. The STATUS register: the kind and sub-cause codes and how they are packed (10_state.md R29,
60_exceptions.md R181, R182). It is the block's only flag (10_state.md R30).
-/
namespace Sys2Proof.Machine

/-- The five error kinds (60_exceptions.md R181, R183 to R187). -/
inductive Kind where
  | validationError
  | frameTooShort
  | checksumMismatch
  | deserializationError
  | oversizeFrame
  deriving DecidableEq, Repr

/-- The sub-causes the block writes (60_exceptions.md R182). -/
inductive Sub where
  | noCause
  | truncated
  | badHeader
  | badVersion
  | unknownCommand
  | lengthMismatch
  deriving DecidableEq, Repr

/-- `STATUS.KIND` of an error (60_exceptions.md R181); 0 is OK. -/
def Kind.code : Kind → BitVec 4
  | .validationError => 1
  | .frameTooShort => 2
  | .checksumMismatch => 3
  | .deserializationError => 4
  | .oversizeFrame => 5

/-- `STATUS.SUB` (60_exceptions.md R182). -/
def Sub.code : Sub → BitVec 4
  | .noCause => 0
  | .truncated => 1
  | .badHeader => 2
  | .badVersion => 3
  | .unknownCommand => 4
  | .lengthMismatch => 5

/-- `STATUS` with the given fields: `(sub << 4) | kind` (60_exceptions.md R189). -/
def packStatus (sub kind : BitVec 4) : Word := (sub.setWidth 32 <<< 4) ||| kind.setWidth 32

/-- The value of `STATUS` after an error (60_exceptions.md R189). -/
def statusWord (kind : Kind) (sub : Sub) : Word := packStatus sub.code kind.code

/-- The value of `STATUS` after success (10_state.md R29). -/
def statusOk : Word := 0

/-- `STATUS[3:0]` (10_state.md R29) -/
def statusKind (w : Word) : BitVec 4 := w.extractLsb' 0 4

/-- `STATUS[7:4]` (10_state.md R29) -/
def statusSub (w : Word) : BitVec 4 := w.extractLsb' 4 4

/-- The complete set of values `STATUS` can hold (10_state.md R29). -/
def statusValues : List Word := [0x00, 0x41, 0x02, 0x03, 0x14, 0x24, 0x34, 0x44, 0x54, 0x05]

end Sys2Proof.Machine
end

