-- ==== Sys2Proof/Machine/State.lean ====
section
/-!
DEFINITION. The state of one WMB-CODEC instance (10_state.md R20), the host's pending actions, and the
reasons a step can stop. Plain data throughout.
-/
namespace Sys2Proof.Machine

/-- The cells of a buffer: index and byte, indices strictly rising. An index that is not listed is a
byte nobody has written (log entry 3). -/
abbrev Cells := List Host.Cell

/-- The eight result registers, in the order of their numbers (10_state.md R27, R28). -/
structure Results where
  /-- `x[0]`: KIND in bits 3:0, SUB in bits 7:4 (10_state.md R29) -/
  status : Word
  /-- `x[1]`: number of valid bytes in OB (10_state.md R31) -/
  olen : Word
  /-- `x[2]`: the computed checksum (10_state.md R32) -/
  crcComp : Word
  /-- `x[3]`: the received checksum (10_state.md R33) -/
  crcRecv : Word
  /-- `x[4]`: the decoded command (10_state.md R34) -/
  cmdOut : Word
  /-- `x[5]`: the decoded length field (10_state.md R35) -/
  lenOut : Word
  /-- `x[6]`: the expected value of the failed check (10_state.md R36) -/
  exp : Word
  /-- `x[7]`: the actual value of the failed check (10_state.md R36) -/
  act : Word
  deriving DecidableEq, Repr

/-- The working state, used only inside an operation and hidden from the host (10_state.md R21, R22).
Operations are computed as functions, which R23 calls exact, so no step reads it. -/
structure Work where
  /-- the Checksum Engine's shift register (10_state.md R21) -/
  crc : Half
  /-- the sequencer's byte index, 0..1024 (10_state.md R22) -/
  idx : Fin 1025
  /-- the latched `CW.LEN` (10_state.md R22) -/
  n : Half
  /-- the remainder length of a decode (10_state.md R22) -/
  m : Nat
  /-- the received checksum of a decode (10_state.md R22) -/
  recv : Half
  /-- the computed checksum of a decode (10_state.md R22) -/
  comp : Half
  /-- the decoded length field `L` (10_state.md R22) -/
  len : Half
  deriving DecidableEq, Repr

/-- What the host can do to the block (log entry 1). Its reads have no effect and are not actions. -/
inductive HostAction where
  /-- the host writes bytes to `IB` from an index on (20_memory.md R50, 30_encoding.md R86) -/
  | writeInput (at_ : Nat) (bytes : List Byte)
  /-- the host copies `OB[0 .. OLEN-1]` to `IB[0 ..]` (30_encoding.md R86) -/
  | copyOutput
  /-- the host writes the command word register, which issues an operation (10_state.md R26) -/
  | issue (w : Word)
  /-- the reset event (70_reset_and_hazards.md R200) -/
  | reset
  deriving DecidableEq, Repr

/-- The whole state of one instance, with the host that drives it. -/
structure State where
  /-- `IB_CAP` and `CMD_SET`, which no step changes (00_scope.md R9, log entry 2) -/
  params : Config.Params
  /-- the command word register `CW` (10_state.md R26) -/
  cw : Word
  /-- the input buffer `IB` (10_state.md R37) -/
  ib : Cells
  /-- the output buffer `OB` (10_state.md R37) -/
  ob : Cells
  /-- the result registers `x[0]` to `x[7]` (10_state.md R27) -/
  x : Results
  /-- the working state (10_state.md R21, R22) -/
  work : Work
  /-- the MODEL's own: which copy of the block this is, as an index of its free values; two copies of the
  block are two states with different keys (20_memory.md R62). No step changes it (log entry 13) -/
  unitKey : Nat
  /-- the MODEL's own: resets so far, which index the free values of unwritten bytes (log entry 3) -/
  resets : Nat
  /-- the MODEL's own: operations so far, which index the free values of `work` (log entry 4) -/
  ops : Nat
  /-- the MODEL's own: the host's pending actions, next first (log entry 1) -/
  host : List HostAction
  deriving DecidableEq, Repr

/-- Why a step stops with a fault. The block itself has none (60_exceptions.md R180); these belong to
the host's accesses to its buffers. -/
inductive Fault where
  /-- Raised by a host write that reaches an index of `IB` at or beyond `IB_CAP`, which does not exist
  (20_memory.md R60). Safe: the model stops where the spec says nothing. Log entry 6. -/
  | noSuchInputIndex (index : Nat)
  /-- Raised by a host copy of the output that reaches an index of `OB` beyond 1023, which does not exist
  (20_memory.md R60); no run reaches it, since OLEN is at most 1024. Safe. Log entry 6. -/
  | noSuchOutputIndex (index : Nat)
  deriving DecidableEq, Repr

/-- Why a step is refused: the spec gives the command word no meaning and says that a model must refuse
it (00_scope.md R11, 93_implementation_defined.md U1 to U3). -/
inductive Refusal where
  /-- Raised by an arm of `exec` whose instruction has no meaning yet; none is left. Safe. -/
  | notModelled (mnemonic : String)
  /-- Raised by the issue of a word with a reserved operation code (30_encoding.md R76, U1). Safe. -/
  | reservedOpcode (opc : Byte)
  /-- Raised by the issue of a word with a nonzero `ARG` where it is unused (30_encoding.md R77, U1). Safe. -/
  | reservedArgument (opc arg : Byte)
  /-- Raised by `CRC.COMPUTE n` with `n > IB_CAP` (40_crc.md R97, U2). Safe. -/
  | lengthBeyondInputBuffer (n : Half)
  /-- Raised by a decode with `n > 1024` (42_frame_decode.md R131, U3). Safe. -/
  | lengthBeyondMaxFrame (n : Half)
  deriving DecidableEq, Repr

/-- The result registers after reset: all 0 (10_state.md R38). -/
def Results.zero : Results := ⟨0, 0, 0, 0, 0, 0, 0, 0⟩

/-- The working state after reset. The spec leaves it unspecified (10_state.md R38) and nothing reads
it; 0 is the model's. DESIGN CHOICE, unsafe, log entry 5. -/
def Work.zero : Work := ⟨0, 0, 0, 0, 0, 0, 0⟩

/-- The machine right after reset (10_state.md R38, 70_reset_and_hazards.md R200), with the default
parameters of 00_scope.md R9 and no pending host action. `CW` is unspecified after reset and read by
nothing before it is written: 0 is the model's. DESIGN CHOICE, unsafe, log entry 5. -/
def State.reset : State where
  params := defaultParams
  cw := 0
  ib := []
  ob := []
  x := .zero
  work := .zero
  unitKey := 0
  resets := 0
  ops := 0
  host := []

end Sys2Proof.Machine
end

