-- ==== Sys2Proof/Machine/Ops.lean ====
section
/-!
DEFINITION. The named operations over the buffers and the registers, and the two ways an operation
ends: success, and `raise`, which is the whole of this block's "trap entry" (60_exceptions.md R189).
There is no return from an error to model: the next command word runs as if nothing had happened (R192).
-/
namespace Sys2Proof.Machine

/-- The byte written at an index, none where nobody has written one. -/
def Memory.read : Cells → Nat → Option Byte
  | [], _ => none
  | (k, b) :: rest, a => if k = a then some b else Memory.read rest a

/-- Write one byte, keeping the indices strictly rising. -/
def Memory.write : Cells → Nat → Byte → Cells
  | [], a, v => [(a, v)]
  | (k, b) :: rest, a, v =>
    if a < k then (a, v) :: (k, b) :: rest
    else if a = k then (a, v) :: rest
    else (k, b) :: Memory.write rest a v

/-- Write bytes at consecutive indices, lowest first (20_memory.md R56). -/
def Memory.writeBytes (m : Cells) (a : Nat) : List Byte → Cells
  | [] => m
  | b :: bs => Memory.writeBytes (Memory.write m a b) (a + 1) bs

/-- The canonical form of a buffer: indices strictly rising. An unlisted index is "not written", which
is no byte, so no listed byte can equal it (log entry 3). -/
abbrev Memory.wf (m : Cells) : Prop := m.Pairwise (fun c d => c.1 < d.1)

/-- `IB[a]`: the byte the host wrote there, or a free value (10_state.md R38). -/
def State.inputByte (s : State) (a : Nat) : Byte :=
  (Memory.read s.ib a).getD (Config.unwrittenInput s.unitKey s.resets a)

/-- `OB[a]`: the byte the block wrote there, or a free value (10_state.md R38). -/
def State.outputByte (s : State) (a : Nat) : Byte :=
  (Memory.read s.ob a).getD (Config.unwrittenOutput s.unitKey s.resets a)

/-- `OB[0 .. n-1]`. -/
def State.outputBytes (s : State) (n : Nat) : List Byte := (List.range n).map s.outputByte

/-- Result register `x[i]` (10_state.md R28). -/
def Results.get (r : Results) (i : Fin 8) : Word :=
  match i with
  | 0 => r.status
  | 1 => r.olen
  | 2 => r.crcComp
  | 3 => r.crcRecv
  | 4 => r.cmdOut
  | 5 => r.lenOut
  | 6 => r.exp
  | 7 => r.act

/-- The host's read of a result register; it has no side effect (10_state.md R27). -/
def State.readResult (s : State) (i : Fin 8) : Word := s.x.get i

/-- The host's read of one byte of `OB`, none at an index that does not exist; it has no side effect
(20_memory.md R51, R59, R60). -/
def State.readOutput (s : State) (a : Nat) : Option Byte :=
  if a < obCap then some (s.outputByte a) else none

/-- The working state between operations: free values, since it then "holds unspecified values"
(10_state.md R23). Log entries 4 and 13. -/
def idleWork (key ops : Nat) : Work where
  crc := Config.idleCrc key ops
  idx := Config.idleIdx key ops
  n := Config.idleN key ops
  m := Config.idleM key ops
  recv := Config.idleRecv key ops
  comp := Config.idleComp key ops
  len := Config.idleLen key ops

/-- How every operation ends: all eight result registers are written (10_state.md R27), the output goes
to `OB` from index 0 on, every other byte of `OB` stays as it was (10_state.md R37), and the working
state is unspecified again (10_state.md R23). -/
def State.finish (s : State) (x : Results) (out : List Byte) : State :=
  { s with x := x, ob := Memory.writeBytes s.ob 0 out, work := idleWork s.unitKey s.ops, ops := s.ops + 1 }

/-- The two checksums a decode has determined (60_exceptions.md R189). -/
structure Checksums where
  comp : Half
  recv : Half
  deriving DecidableEq, Repr

/-- What a successful operation reports (10_state.md R28, R31 to R35). -/
structure Success where
  /-- the bytes for `OB[0 .. OLEN-1]` -/
  out : List Byte
  /-- `CRC_COMP` -/
  comp : Half
  /-- `CRC_RECV`, 0 where the operation receives none -/
  recv : Half := 0
  /-- `CMD_OUT`, 0 but for FRAME.DECODE.LP -/
  cmd : Byte := 0
  /-- `LEN_OUT`, 0 but for FRAME.DECODE.LP -/
  len : Half := 0
  deriving DecidableEq, Repr

/-- The result registers of a failure (60_exceptions.md R189): the checksums are there only if the
operation had already determined them. -/
def failureResults (kind : Kind) (sub : Sub) (exp act : Nat) (sums : Option Checksums) : Results where
  status := statusWord kind sub
  olen := 0
  crcComp := match sums with
    | some c => c.comp.setWidth 32
    | none => 0
  crcRecv := match sums with
    | some c => c.recv.setWidth 32
    | none => 0
  cmdOut := 0
  lenOut := 0
  exp := BitVec.ofNat 32 exp
  act := BitVec.ofNat 32 act

/-- The result registers of a success (10_state.md R28 to R36). -/
def successResults (r : Success) : Results where
  status := statusOk
  olen := BitVec.ofNat 32 r.out.length
  crcComp := r.comp.setWidth 32
  crcRecv := r.recv.setWidth 32
  cmdOut := r.cmd.setWidth 32
  lenOut := r.len.setWidth 32
  exp := 0
  act := 0

/-- `raise <Kind>(sub, exp, act)`: the operation ends at once; the result registers say why, `OB` and
`IB` are not written, nothing else changes (60_exceptions.md R189). -/
def State.raise (s : State) (kind : Kind) (sub : Sub) (exp act : Nat) (sums : Option Checksums) : State :=
  s.finish (failureResults kind sub exp act sums) []

/-- `return OK`: the output stands in `OB[0 .. OLEN-1]` and `STATUS = 0` (10_state.md R31, R37). -/
def State.succeed (s : State) (r : Success) : State := s.finish (successResults r) r.out

end Sys2Proof.Machine
end

