-- ==== Sys2Proof/Machine/Operands.lean ====
section
/-!
DEFINITION. The operand forms: the length and command operands of a command word, the input bytes they
point at, and the byte order of 16-bit values (30_encoding.md R73, 20_memory.md R54).
-/
namespace Sys2Proof.Machine

/-- The more significant byte of a 16-bit value (00_scope.md R10). -/
def hi8 (v : Half) : Byte := v.extractLsb' 8 8

/-- The less significant byte of a 16-bit value (00_scope.md R10). -/
def lo8 (v : Half) : Byte := v.extractLsb' 0 8

/-- The 16-bit value of two bytes, the more significant first (00_scope.md R10, 20_memory.md R54). -/
def be16 (a b : Byte) : Half := a ++ b

/-- A 16-bit value as it stands on the wire (20_memory.md R54). -/
def be16Bytes (v : Half) : List Byte := [hi8 v, lo8 v]

/-- `IB[0 .. n-1]`, the input of every operation: it always starts at index 0 (30_encoding.md R73). -/
def State.input (s : State) (n : Nat) : List Byte := (List.range n).map s.inputByte

/-- `MemRead(addr, 2)` (00_scope.md R11, 20_memory.md R54): no alignment is asked for (R57). -/
def State.inputHalf (s : State) (a : Nat) : Half := be16 (s.inputByte a) (s.inputByte (a + 1))

end Sys2Proof.Machine
end

