-- ==== Sys2Proof/Machine/Frame.lean ====
section
/-!
DEFINITION. The wire formats of the two framing variants (30_encoding.md R78 to R85) and what the four
frame operations share: adding a trailer, checking one, and reading a length-prefixed remainder.
-/
namespace Sys2Proof.Machine

/-- The five bytes before the payload of a length-prefixed frame: header, version, command, length
(30_encoding.md R78, R79). -/
def headBytes (cmd : Byte) (n : Half) : List Byte := [header, version, cmd] ++ be16Bytes n

/-- A body with its checksum trailer, which covers every byte before it and is big-endian
(30_encoding.md R80, R81). -/
def withTrailer (body : List Byte) : List Byte := body ++ be16Bytes (crc16 body)

/-- The last step of both builds: the frame goes to `OB`, its checksum to `CRC_COMP`, 0 to the other
result registers (41_frame_build.md R112 step 3, R116 step 2). -/
def State.deliverFrame (s : State) (body : List Byte) : State :=
  s.succeed { out := withTrailer body, comp := crc16 body }

/-- Steps 1 and 2 of both decodes (42_frame_decode.md R130): the length check and the checksum check on
the frame `IB[0 .. n-1]`. Answers the verified checksum, or the state in which the decode has failed. -/
def State.verifyFrame (s : State) (n : Nat) : Except State Half :=
  if n < minDecode then .error (s.raise .frameTooShort .noCause minDecode n none)
  else
    let recv := s.inputHalf (n - crcLen)
    let comp := crc16 (s.input (n - crcLen))
    if recv = comp then .ok comp
    else .error (s.raise .checksumMismatch .noCause comp.toNat recv.toNat (some ⟨comp, recv⟩))

/-- Why a verified remainder is not a length-prefixed frame: a sub-cause with its expected and actual
values (42_frame_decode.md R132 steps 3 to 7). -/
structure ParseError where
  sub : Sub
  exp : Nat
  act : Nat
  deriving DecidableEq, Repr

/-- What a length-prefixed remainder carries (42_frame_decode.md R132 step 8). -/
structure Parsed where
  cmd : Byte
  len : Half
  payload : List Byte
  deriving DecidableEq, Repr

/-- Steps 3 to 7 of the length-prefixed decode, in their order, on the remainder without the trailer
(42_frame_decode.md R132, R133). -/
def parseRemainder (cmdSet : List Byte) : List Byte → Except ParseError Parsed
  | h :: v :: cmd :: l1 :: l0 :: payload =>
    if h ≠ header then .error ⟨.badHeader, header.toNat, h.toNat⟩
    else if v ≠ version then .error ⟨.badVersion, version.toNat, v.toNat⟩
    else if cmd ∉ cmdSet then .error ⟨.unknownCommand, 0, cmd.toNat⟩
    else if (be16 l1 l0).toNat ≠ payload.length then
      .error ⟨.lengthMismatch, (be16 l1 l0).toNat, payload.length⟩
    else .ok ⟨cmd, be16 l1 l0, payload⟩
  | short => .error ⟨.truncated, headLP, short.length⟩

end Sys2Proof.Machine
end

