-- ==== Sys2Proof/Machine/Build.lean ====
section
/-!
DEFINITION. The meanings of the two builds (41_frame_build.md R112, R116). Frame sizes are compared as
natural numbers, with no wrap-around (R110), and every check comes before the first byte is read (R114).
-/
namespace Sys2Proof.Machine

/-- `FRAME.BUILD.LP cmd, n` (41_frame_build.md R112): an unknown command is reported before an oversize
frame (60_exceptions.md R188). -/
def execFrameBuildLP (cmd : Byte) (n : Half) (s : State) : Host.Outcome State Fault Refusal :=
  if cmd ∉ s.params.cmdSet then .next (s.raise .validationError .unknownCommand 0 cmd.toNat none)
  else if maxFrame < n.toNat + envelopeLP then
    .next (s.raise .oversizeFrame .noCause maxFrame (n.toNat + envelopeLP) none)
  else .next (s.deliverFrame (headBytes cmd n ++ s.input n.toNat))

/-- `FRAME.BUILD.SD n` (41_frame_build.md R116): the message is opaque (R115). -/
def execFrameBuildSD (n : Half) (s : State) : Host.Outcome State Fault Refusal :=
  if maxFrame < n.toNat + crcLen then
    .next (s.raise .oversizeFrame .noCause maxFrame (n.toNat + crcLen) none)
  else .next (s.deliverFrame (s.input n.toNat))

end Sys2Proof.Machine
end

