-- ==== Sys2Proof/Machine/Checksum.lean ====
section
/-!
DEFINITION. The meaning of `CRC.COMPUTE` (40_crc.md R97).
-/
namespace Sys2Proof.Machine

/-- `CRC.COMPUTE n` (40_crc.md R97): the checksum of `IB[0 .. n-1]` in `CRC_COMP`, `OB` as it was. The
operation cannot fail; beyond `IB_CAP` it has no meaning and is refused (U2). -/
def execCrcCompute (n : Half) (s : State) : Host.Outcome State Fault Refusal :=
  if n.toNat ≤ ibCap s.params then .next (s.succeed { out := [], comp := crc16 (s.input n.toNat) })
  else .refused (.lengthBeyondInputBuffer n)

end Sys2Proof.Machine
end

