-- ==== Sys2Proof/Machine/FrameDecode.lean ====
section
/-!
DEFINITION. The meanings of the two decodes (42_frame_decode.md R132, R137). Nothing of an unverified
frame is looked at beyond its trailer, and nothing is copied unless the decode succeeds (R135).
-/
namespace Sys2Proof.Machine

/-- `FRAME.DECODE.LP n` (42_frame_decode.md R132). Beyond 1024 bytes it has no meaning and is refused
(R131, U3). -/
def execFrameDecodeLP (n : Half) (s : State) : Host.Outcome State Fault Refusal :=
  if n.toNat ≤ maxFrame then
    match s.verifyFrame n.toNat with
    | .error t => .next t
    | .ok sum =>
      match parseRemainder s.params.cmdSet (s.input (n.toNat - crcLen)) with
      | .error e => .next (s.raise .deserializationError e.sub e.exp e.act (some ⟨sum, sum⟩))
      | .ok p => .next (s.succeed { out := p.payload, comp := sum, recv := sum, cmd := p.cmd, len := p.len })
  else .refused (.lengthBeyondMaxFrame n)

/-- `FRAME.DECODE.SD n` (42_frame_decode.md R137): the verified remainder is delivered as it is, the
external deserializer does the rest (R136). Beyond 1024 bytes it is refused (R131, U3). -/
def execFrameDecodeSD (n : Half) (s : State) : Host.Outcome State Fault Refusal :=
  if n.toNat ≤ maxFrame then
    match s.verifyFrame n.toNat with
    | .error t => .next t
    | .ok sum => .next (s.succeed { out := s.input (n.toNat - crcLen), comp := sum, recv := sum })
  else .refused (.lengthBeyondMaxFrame n)

end Sys2Proof.Machine
end

