-- ==== Sys2Proof/Syntax.lean ====
section
/-!
DEFINITION. The five operations of the block, one constructor per row of spec/opcode_table.json
(00_scope.md R2, 30_encoding.md R74, R75).
-/
namespace Sys2Proof

/-- An operation with its operands (30_encoding.md R73, R74). `n` is `CW.LEN`, `cmd` is `CW.ARG`; the
types are the fields' own widths, so every term has a command word. -/
inductive Instr where
  /-- `CRC.COMPUTE n`: checksum of `IB[0 .. n-1]` (40_crc.md R97) -/
  | crcCompute (n : Half)
  /-- `FRAME.BUILD.LP cmd, n`: a length-prefixed frame around `IB[0 .. n-1]` (41_frame_build.md R112) -/
  | frameBuildLP (cmd : Byte) (n : Half)
  /-- `FRAME.BUILD.SD n`: a self-describing frame from the message `IB[0 .. n-1]` (41_frame_build.md R116) -/
  | frameBuildSD (n : Half)
  /-- `FRAME.DECODE.LP n`: unwrap the length-prefixed frame `IB[0 .. n-1]` (42_frame_decode.md R132) -/
  | frameDecodeLP (n : Half)
  /-- `FRAME.DECODE.SD n`: unwrap the self-describing frame `IB[0 .. n-1]` (42_frame_decode.md R137) -/
  | frameDecodeSD (n : Half)
  deriving DecidableEq, Repr

end Sys2Proof
end

