-- ==== Sys2Proof/Machine/Dispatch.lean ====
section
/-!
DEFINITION. What each operation does, one arm per constructor of `Instr`, each a call of its meaning.
-/
namespace Sys2Proof.Machine

def exec (i : Instr) (s : State) : Host.Outcome State Fault Refusal :=
  match i with
  | .crcCompute n => Sys2Proof.Machine.execCrcCompute n s
  | .frameBuildLP cmd n => Sys2Proof.Machine.execFrameBuildLP cmd n s
  | .frameBuildSD n => Sys2Proof.Machine.execFrameBuildSD n s
  | .frameDecodeLP n => Sys2Proof.Machine.execFrameDecodeLP n s
  | .frameDecodeSD n => Sys2Proof.Machine.execFrameDecodeSD n s

end Sys2Proof.Machine
end

