-- ==== Sys2Proof/Decode.lean ====
section
/-!
DEFINITION. The command word: its fields, its decoder, the opcode table as match and mask, and the
encoder (30_encoding.md section 1). The word is one 32-bit value, not bytes (20_memory.md R52), so no
byte order arises.
-/
namespace Sys2Proof

/-- `CW.OPC = CW[31:24]` (30_encoding.md R70) -/
def cwOpc (w : Word) : Byte := w.extractLsb' 24 8

/-- `CW.ARG = CW[23:16]` (30_encoding.md R70) -/
def cwArg (w : Word) : Byte := w.extractLsb' 16 8

/-- `CW.LEN = CW[15:0]` (30_encoding.md R70) -/
def cwLen (w : Word) : Half := w.extractLsb' 0 16

/-- Why a command word is reserved. -/
inductive Reserved where
  /-- an operation code the map does not define (30_encoding.md R76) -/
  | opcode (opc : Byte)
  /-- a nonzero `ARG` where the operation has no such operand (30_encoding.md R77) -/
  | argument (opc arg : Byte)
  deriving DecidableEq, Repr

/-- An operation whose `ARG` must be 0 (30_encoding.md R74, R77). -/
def withoutArg (opc arg : Byte) (i : Instr) : Except Reserved Instr :=
  if arg = 0 then .ok i else .error (.argument opc arg)

/-- The decoder: a total function from 32 bits to one of the five operations or *reserved*
(30_encoding.md R71, R75 to R77). -/
def decode (w : Word) : Except Reserved Instr :=
  if cwOpc w = 0x01 then withoutArg (cwOpc w) (cwArg w) (.crcCompute (cwLen w))
  else if cwOpc w = 0x10 then .ok (.frameBuildLP (cwArg w) (cwLen w))
  else if cwOpc w = 0x11 then withoutArg (cwOpc w) (cwArg w) (.frameBuildSD (cwLen w))
  else if cwOpc w = 0x20 then withoutArg (cwOpc w) (cwArg w) (.frameDecodeLP (cwLen w))
  else if cwOpc w = 0x21 then withoutArg (cwOpc w) (cwArg w) (.frameDecodeSD (cwLen w))
  else .error (.opcode (cwOpc w))

/-- One row of the opcode table: the bits that are fixed and their values (30_encoding.md R75). -/
structure OpcodeRow where
  mnemonic : String
  bits : Word
  mask : Word
  deriving DecidableEq, Repr

/-- The opcode table (30_encoding.md R75, spec/opcode_table.json). -/
def opcodeTable : List OpcodeRow :=
  [ ⟨"CRC.COMPUTE", 0x01000000, 0xFFFF0000⟩,
    ⟨"FRAME.BUILD.LP", 0x10000000, 0xFF000000⟩,
    ⟨"FRAME.BUILD.SD", 0x11000000, 0xFFFF0000⟩,
    ⟨"FRAME.DECODE.LP", 0x20000000, 0xFFFF0000⟩,
    ⟨"FRAME.DECODE.SD", 0x21000000, 0xFFFF0000⟩ ]

/-- A word that a row of the table describes. -/
def OpcodeRow.describes (row : OpcodeRow) (w : Word) : Bool := w &&& row.mask == row.bits

/-- The mnemonic of an operation (30_encoding.md R75). -/
def Instr.mnemonic : Instr → String
  | .crcCompute _ => "CRC.COMPUTE"
  | .frameBuildLP _ _ => "FRAME.BUILD.LP"
  | .frameBuildSD _ => "FRAME.BUILD.SD"
  | .frameDecodeLP _ => "FRAME.DECODE.LP"
  | .frameDecodeSD _ => "FRAME.DECODE.SD"

/-- The operation code of an operation (30_encoding.md R75). -/
def Instr.opc : Instr → Byte
  | .crcCompute _ => 0x01
  | .frameBuildLP _ _ => 0x10
  | .frameBuildSD _ => 0x11
  | .frameDecodeLP _ => 0x20
  | .frameDecodeSD _ => 0x21

/-- The `ARG` field of an operation: its command identifier, or 0 (30_encoding.md R70, R74). -/
def Instr.arg : Instr → Byte
  | .crcCompute _ => 0
  | .frameBuildLP cmd _ => cmd
  | .frameBuildSD _ => 0
  | .frameDecodeLP _ => 0
  | .frameDecodeSD _ => 0

/-- The `LEN` field of an operation (30_encoding.md R74). -/
def Instr.len : Instr → Half
  | .crcCompute n => n
  | .frameBuildLP _ n => n
  | .frameBuildSD n => n
  | .frameDecodeLP n => n
  | .frameDecodeSD n => n

/-- The command word with the given fields (30_encoding.md R70). -/
def commandWord (opc arg : Byte) (len : Half) : Word := opc ++ arg ++ len

/-- The encoder (30_encoding.md R70, R75, R86). -/
def encode (i : Instr) : Word := commandWord i.opc i.arg i.len

/-- The written form of an operation, operands in decimal (30_encoding.md R86). -/
def Instr.written : Instr → String
  | .crcCompute n => "CRC.COMPUTE " ++ toString n.toNat
  | .frameBuildLP cmd n => "FRAME.BUILD.LP " ++ toString cmd.toNat ++ ", " ++ toString n.toNat
  | .frameBuildSD n => "FRAME.BUILD.SD " ++ toString n.toNat
  | .frameDecodeLP n => "FRAME.DECODE.LP " ++ toString n.toNat
  | .frameDecodeSD n => "FRAME.DECODE.SD " ++ toString n.toNat

/-- What the decoder reads from a word whose low `nbits` bits are given and whose other bits are 0, the
numbering being that of spec/opcode_table.json (bit 0 least significant). -/
def decodeTableWord (nbits w : Nat) : Option Instr :=
  match decode (BitVec.ofNat 32 (w % 2 ^ nbits)) with
  | .ok i => some i
  | .error _ => none

end Sys2Proof
end

