-- ==== Sys2Proof/Machine/HostPort.lean ====
section
/-!
DEFINITION. What each action of the host does to the block (10_state.md R26, R37; 20_memory.md R50, R61;
30_encoding.md R72, R86; 70_reset_and_hazards.md R200). Each is one atomic step in host program order.
-/
namespace Sys2Proof.Machine

/-- The host writes bytes to `IB` from index `a` on (20_memory.md R50). An index at or beyond `IB_CAP`
does not exist (20_memory.md R60, log entry 6); the index reported is the first such one. Writing no
bytes reaches no index. -/
def State.hostWrite (s : State) (a : Nat) (bytes : List Byte) : Host.Outcome State Fault Refusal :=
  if bytes = [] ∨ a + bytes.length ≤ ibCap s.params then .next { s with ib := Memory.writeBytes s.ib a bytes }
  else .fault (.noSuchInputIndex (max a (ibCap s.params)))

/-- The host copies `OB[0 .. OLEN-1]` to the start of `IB` (30_encoding.md R86). -/
def State.hostCopyOutput (s : State) : Host.Outcome State Fault Refusal :=
  if s.x.olen.toNat ≤ obCap then s.hostWrite 0 (s.outputBytes s.x.olen.toNat)
  else .fault (.noSuchOutputIndex obCap)

/-- The reset event (70_reset_and_hazards.md R200): the state of `State.reset`, with the instance's own
parameters (R203). The buffers' bytes are unspecified again, so they are unwritten under a new number of
resets; the host and the model's own key and counters go on. -/
def State.hostReset (s : State) : State :=
  { State.reset with
    params := s.params, unitKey := s.unitKey, resets := s.resets + 1, ops := s.ops, host := s.host }

/-- The host's write of `CW` latches the word (10_state.md R26). -/
def State.latchCommand (s : State) (w : Word) : State := { s with cw := w }

/-- The refusal of a reserved command word (30_encoding.md R76, R77). -/
def reservedRefusal : Reserved → Refusal
  | .opcode opc => .reservedOpcode opc
  | .argument opc arg => .reservedArgument opc arg

/-- The host's next action is to write `CW` with the word whose low `nbits` bits are given. -/
def State.hostIssuesNext (s : State) (nbits w : Nat) : State :=
  { s with host := .issue (BitVec.ofNat 32 (w % 2 ^ nbits)) :: s.host }

end Sys2Proof.Machine
end

