-- ==== Sys2Proof/Machine/Step.lean ====
section
/-!
DEFINITION. One step: the host's next pending action happens, and if it is a write of the command word
register, the operation it selects runs to its end (10_state.md R26, 20_memory.md R59, R61).
-/
namespace Sys2Proof.Machine

/-- Run the operation that `CW` selects (30_encoding.md R71, R76, R77). -/
def State.runCommand (s : State) : Host.Outcome State Fault Refusal :=
  match decode s.cw with
  | .ok i => exec i s
  | .error r => .refused (reservedRefusal r)

/-- One step. With no pending action the block is idle and nothing changes (70_reset_and_hazards.md
R200; log entry 1). -/
def step (s : State) : Host.Outcome State Fault Refusal :=
  match s.host with
  | [] => .next s
  | .writeInput a bytes :: rest => State.hostWrite { s with host := rest } a bytes
  | .copyOutput :: rest => State.hostCopyOutput { s with host := rest }
  | .issue w :: rest => State.runCommand (State.latchCommand { s with host := rest } w)
  | .reset :: rest => .next (State.hostReset { s with host := rest })

/-- The state in which the next step is the host's write of the given word to `CW`, which is where an
operation comes from (30_encoding.md R72; log entry 7). -/
def State.withFetchWord (s : State) (nbits w : Nat) : State := s.hostIssuesNext nbits w

end Sys2Proof.Machine
end

