-- ==== Sys2Proof/Machine/Payload.lean ====
section
/-!
DEFINITION. The collaborator outside the block that 45_payload_collaborators.md describes: the command
identifiers, the payload builders, and the host actions a builder ends in (R150 to R162); and the
composite decode of the self-describing variant (42_frame_decode.md R136). `step` uses nothing of this
file. Every value no source gives is an argument. The parsers of R163 have no layout in any source and
are not here. Log entry 10.
-/
namespace Sys2Proof.Machine

/-- The command identifiers, a closed type (45_payload_collaborators.md R151, R167). -/
inductive CommandId where
  | reset
  | diagnostics
  | firmwareUpdateNotify
  | deviceMode
  | antennaConfig
  | baudrateConfig
  | modbusOneShot
  | modbusPeriodic
  deriving DecidableEq, Repr

/-- The wire byte of a command identifier (45_payload_collaborators.md R151). -/
def CommandId.code : CommandId → Byte
  | .reset => 0x01
  | .diagnostics => 0x02
  | .firmwareUpdateNotify => 0x03
  | .deviceMode => 0x04
  | .antennaConfig => 0x05
  | .baudrateConfig => 0x06
  | .modbusOneShot => 0x07
  | .modbusPeriodic => 0x08

/-- The modes of a device, a closed type (45_payload_collaborators.md R157, R167). -/
inductive Payload.Mode where
  | primaryController
  | passiveListener
  deriving DecidableEq, Repr

/-- The antennas, a closed type (45_payload_collaborators.md R158, R167). -/
inductive Payload.Antenna where
  | internal
  | external
  deriving DecidableEq, Repr

/-- A port, a closed type of the three kinds a rule tells apart (45_payload_collaborators.md R153, R160,
R167). No source lists the ports, so the members of `PORT_SET` are told apart by their codes. -/
inductive Payload.Port where
  /-- `PORT_NO_EFFECT` -/
  | noEffect
  /-- any other member of `PORT_SET` -/
  | line (code : Byte)
  /-- no member of `PORT_SET`; only a command without a port rule can carry it (91_not_in_source.md N8) -/
  | unlisted (code : Byte)
  deriving DecidableEq, Repr

/-- The rules a command can have for its port (45_payload_collaborators.md R159, R160, R161). -/
inductive Payload.PortRule where
  /-- no rule -/
  | unchecked
  /-- a member of `PORT_SET` -/
  | valid
  /-- a member of `PORT_SET` that is not the "no effect" port -/
  | effective
  deriving DecidableEq, Repr

/-- Whether a rule lets a port through. -/
def Payload.PortRule.accepts : Payload.PortRule → Payload.Port → Bool
  | .unchecked, .noEffect => true
  | .unchecked, .line _ => true
  | .unchecked, .unlisted _ => true
  | .valid, .noEffect => true
  | .valid, .line _ => true
  | .valid, .unlisted _ => false
  | .effective, .noEffect => false
  | .effective, .line _ => true
  | .effective, .unlisted _ => false

/-- The port rules of the three commands that have a port, in one framing scheme. -/
structure Payload.PortRules where
  baudrate : Payload.PortRule
  oneShot : Payload.PortRule
  periodic : Payload.PortRule
  deriving DecidableEq, Repr

/-- The collaborator's parameters, whose values no source gives (45_payload_collaborators.md R153), and
the port rules the document leaves open (91_not_in_source.md N8, 92_eei_decisions.md D28). -/
structure Payload.Codes where
  /-- `MODE_CODES`: primary-controller -/
  primaryController : Byte
  /-- `MODE_CODES`: passive-listener -/
  passiveListener : Byte
  /-- `ANTENNA_CODES`: internal -/
  internalAntenna : Byte
  /-- `ANTENNA_CODES`: external -/
  externalAntenna : Byte
  /-- `PORT_SET` -/
  portSet : List Byte
  /-- `PORT_NO_EFFECT` -/
  portNoEffect : Byte
  /-- `BAUD_TABLE` -/
  baudTable : List Byte
  /-- OPEN: whether set-baudrate also rejects the "no effect" port (R159, N8) -/
  baudrateRejectsNoEffect : Bool
  /-- OPEN: whether modbus-periodic has the one-shot's port rule (R161, N8) -/
  periodicChecksPort : Bool
  /-- OPEN: `SD_REJECTS_NO_EFFECT_PORT`, the one-shot in the structured-message scheme (R165, D28) -/
  sdRejectsNoEffectPort : Bool
  /-- OPEN: whether set-baudrate rejects the "no effect" port in the structured-message scheme. The spec is
  silent. DESIGN CHOICE, safe, log entry 14: a parameter of its own -/
  sdBaudrateRejectsNoEffect : Bool
  /-- OPEN: the port rule of modbus-periodic in the structured-message scheme. The spec is silent. DESIGN
  CHOICE, safe, log entry 14: a parameter of its own -/
  sdPeriodicPort : Payload.PortRule
  deriving DecidableEq, Repr

/-- `PORT_NO_EFFECT` is in `PORT_SET` (45_payload_collaborators.md R153). -/
abbrev Payload.Codes.wf (c : Payload.Codes) : Prop := c.portNoEffect ∈ c.portSet

/-- A port rule that asks for a member of `PORT_SET`, and perhaps for more. -/
def Payload.memberRule (rejectsNoEffect : Bool) : Payload.PortRule :=
  if rejectsNoEffect then .effective else .valid

/-- The port rules of the length-prefixed builders (45_payload_collaborators.md R159, R160, R161). -/
def Payload.Codes.lpPorts (c : Payload.Codes) : Payload.PortRules where
  baudrate := Payload.memberRule c.baudrateRejectsNoEffect
  oneShot := .effective
  periodic := if c.periodicChecksPort then .effective else .unchecked

/-- The port rules of the structured-message builders, every one of them open (45_payload_collaborators.md
R165, log entry 14). -/
def Payload.Codes.sdPorts (c : Payload.Codes) : Payload.PortRules where
  baudrate := Payload.memberRule c.sdBaudrateRejectsNoEffect
  oneShot := Payload.memberRule c.sdRejectsNoEffectPort
  periodic := c.sdPeriodicPort

/-- The mode with a given selector byte, if there is one (45_payload_collaborators.md R157). -/
def Payload.Mode.ofCode (c : Payload.Codes) (b : Byte) : Option Payload.Mode :=
  if b = c.primaryController then some .primaryController
  else if b = c.passiveListener then some .passiveListener
  else none

/-- The selector byte of a mode (45_payload_collaborators.md R153, R157). -/
def Payload.Mode.code (c : Payload.Codes) : Payload.Mode → Byte
  | .primaryController => c.primaryController
  | .passiveListener => c.passiveListener

/-- The antenna with a given selector byte, if there is one (45_payload_collaborators.md R158). -/
def Payload.Antenna.ofCode (c : Payload.Codes) (b : Byte) : Option Payload.Antenna :=
  if b = c.internalAntenna then some .internal
  else if b = c.externalAntenna then some .external
  else none

/-- The selector byte of an antenna (45_payload_collaborators.md R153, R158). -/
def Payload.Antenna.code (c : Payload.Codes) : Payload.Antenna → Byte
  | .internal => c.internalAntenna
  | .external => c.externalAntenna

/-- The port with a given code (45_payload_collaborators.md R153). -/
def Payload.Port.ofCode (c : Payload.Codes) (b : Byte) : Payload.Port :=
  if b ∉ c.portSet then .unlisted b
  else if b = c.portNoEffect then .noEffect
  else .line b

/-- The code of a port (45_payload_collaborators.md R153). -/
def Payload.Port.code (c : Payload.Codes) : Payload.Port → Byte
  | .noEffect => c.portNoEffect
  | .line b => b
  | .unlisted b => b

/-- The commands that have a builder, over the closed types (45_payload_collaborators.md R154 to R161,
R167): what a builder has once its checks have passed. There is none for firmware-update-notify (R156). -/
inductive Payload.Command where
  | reset
  | diagnostics
  | setMode (mode : Payload.Mode)
  | setAntenna (antenna : Payload.Antenna)
  | setBaudrate (port : Payload.Port) (code : Byte)
  | modbusOneShot (port : Payload.Port) (embedded : List Byte)
  | modbusPeriodic (port : Payload.Port) (index : Byte) (interval : BitVec 24) (embedded : List Byte)
  deriving DecidableEq, Repr

/-- The same commands with the values offered to a builder before any check, which may be wrong (R152):
selectors and ports are the bytes of R157 to R161, lengths, indices and intervals unbounded numbers. -/
inductive Payload.Request where
  | reset
  | diagnostics
  | setMode (mode : Byte)
  | setAntenna (antenna : Byte)
  | setBaudrate (port code : Byte)
  | modbusOneShot (port : Byte) (embedded : List Byte)
  | modbusPeriodic (port : Byte) (index : Nat) (interval : Int) (embedded : List Byte)
  deriving DecidableEq, Repr

/-- The violations a builder can report, all of kind ValidationError (45_payload_collaborators.md R152,
90_conflicts.md C9). -/
inductive Payload.Violation where
  | modeSelector
  | antennaSelector
  | port
  | baudrateCode
  | configIndex
  | interval
  | embeddedTooLong
  deriving DecidableEq, Repr

/-- The sub-cause a builder reports a violation under: of its own choosing from 6..15
(60_exceptions.md R182). DESIGN CHOICE, safe, log entry 10. -/
def Payload.Violation.sub : Payload.Violation → BitVec 4
  | .modeSelector => 6
  | .antennaSelector => 7
  | .port => 8
  | .baudrateCode => 9
  | .configIndex => 10
  | .interval => 11
  | .embeddedTooLong => 12

/-- The violation in the block's STATUS encoding (45_payload_collaborators.md R152). -/
def Payload.Violation.status (v : Payload.Violation) : Word := packStatus v.sub Kind.validationError.code

/-- The identifier a request travels under (45_payload_collaborators.md R154 to R161). -/
def Payload.Request.command : Payload.Request → CommandId
  | .reset => .reset
  | .diagnostics => .diagnostics
  | .setMode _ => .deviceMode
  | .setAntenna _ => .antennaConfig
  | .setBaudrate _ _ => .baudrateConfig
  | .modbusOneShot _ _ => .modbusOneShot
  | .modbusPeriodic _ _ _ _ => .modbusPeriodic

/-- The longest interval of modbus-periodic, 30 days in seconds (45_payload_collaborators.md R161). -/
abbrev maxInterval : Int := 2592000

/-- The checks of a builder: the command in closed types, or the first constraint the request violates;
nothing is clamped (45_payload_collaborators.md R152, R157 to R161). The order of the checks within one
request is that of its fields: DESIGN CHOICE, safe, log entry 10. -/
def Payload.check (c : Payload.Codes) (ports : Payload.PortRules) :
    Payload.Request → Except Payload.Violation Payload.Command
  | .reset => .ok .reset
  | .diagnostics => .ok .diagnostics
  | .setMode b =>
    match Payload.Mode.ofCode c b with
    | some mode => .ok (.setMode mode)
    | none => .error .modeSelector
  | .setAntenna b =>
    match Payload.Antenna.ofCode c b with
    | some antenna => .ok (.setAntenna antenna)
    | none => .error .antennaSelector
  | .setBaudrate b code =>
    if ports.baudrate.accepts (.ofCode c b) = false then .error .port
    else if code ∉ c.baudTable then .error .baudrateCode
    else .ok (.setBaudrate (.ofCode c b) code)
  | .modbusOneShot b embedded =>
    if ports.oneShot.accepts (.ofCode c b) = false then .error .port
    else if maxEmbedded < embedded.length then .error .embeddedTooLong
    else .ok (.modbusOneShot (.ofCode c b) embedded)
  | .modbusPeriodic b index interval embedded =>
    if ports.periodic.accepts (.ofCode c b) = false then .error .port
    else if index < 1 ∨ 64 < index then .error .configIndex
    else if interval < 0 ∨ maxInterval < interval then .error .interval
    else if maxEmbedded < embedded.length then .error .embeddedTooLong
    else .ok (.modbusPeriodic (.ofCode c b) (BitVec.ofNat 8 index) (BitVec.ofInt 24 interval) embedded)

/-- The three bytes of an interval, big-endian (45_payload_collaborators.md R161). -/
def intervalBytes (v : BitVec 24) : List Byte :=
  [v.extractLsb' 16 8, v.extractLsb' 8 8, v.extractLsb' 0 8]

/-- The payload of a command (45_payload_collaborators.md R154 to R161): the embedded frame is carried
unmodified. -/
def Payload.layout (c : Payload.Codes) : Payload.Command → List Byte
  | .reset => []
  | .diagnostics => []
  | .setMode mode => [mode.code c]
  | .setAntenna antenna => [antenna.code c]
  | .setBaudrate port code => [port.code c, code]
  | .modbusOneShot port embedded => port.code c :: embedded
  | .modbusPeriodic port index interval embedded =>
    [port.code c, index] ++ intervalBytes interval ++ embedded

/-- A length-prefixed builder: the payload, or the violation, raised before any byte is produced
(45_payload_collaborators.md R152). -/
def Payload.build (c : Payload.Codes) (r : Payload.Request) : Except Payload.Violation (List Byte) :=
  match Payload.check c c.lpPorts r with
  | .error v => .error v
  | .ok cmd => .ok (Payload.layout c cmd)

/-- What a length-prefixed builder has the host do: place the payload, then issue
`FRAME.BUILD.LP cmd, |P|`; a builder that fails issues nothing (45_payload_collaborators.md R150, R152). -/
def Payload.actions (c : Payload.Codes) (r : Payload.Request) : Except Payload.Violation (List HostAction) :=
  match Payload.build c r with
  | .error v => .error v
  | .ok p => .ok [.writeInput 0 p, .issue (encode (.frameBuildLP r.command.code (BitVec.ofNat 16 p.length)))]

/-- Why a structured-message builder fails. -/
inductive Payload.SdError where
  /-- a constraint is violated (45_payload_collaborators.md R152) -/
  | validation (v : Payload.Violation)
  /-- the message does not fit the 16-bit length, so no build can be issued: the kind 41_frame_build.md
  R111 gives that constraint. DESIGN CHOICE, safe, log entry 10 -/
  | oversizeFrame
  deriving DecidableEq, Repr

/-- What a structured-message builder has the host do, with the external serializer as an argument:
place M in `IB`, then issue `FRAME.BUILD.SD |M|` (45_payload_collaborators.md R150, R165, R166). Of a
message longer than `IB` the host places the bytes that fit: the spec does not say how it places one. The
build is issued all the same and reports it as oversize without reading `IB` (41_frame_build.md R114,
R116). DESIGN CHOICE, safe, log entry 15. -/
def Payload.actionsSD (p : Config.Params) (serialize : Payload.Command → List Byte) (c : Payload.Codes)
    (r : Payload.Request) : Except Payload.SdError (List HostAction) :=
  match Payload.check c c.sdPorts r with
  | .error v => .error (.validation v)
  | .ok cmd =>
    let message := serialize cmd
    if message.length < 65536 then
      .ok [.writeInput 0 (message.take (ibCap p)),
           .issue (encode (.frameBuildSD (BitVec.ofNat 16 message.length)))]
    else .error .oversizeFrame

/-- What the document's whole decode of a self-describing frame answers (42_frame_decode.md R136). -/
inductive Payload.Decoded (μ : Type) where
  /-- the block verified the frame and the external deserializer read it -/
  | message (m : μ)
  /-- the block verified the frame and the external deserializer did not read it -/
  | deserializationError
  /-- the block reported a failure -/
  | failed (status : Word)
  deriving DecidableEq, Repr

/-- The composite decode, from the state after `FRAME.DECODE.SD` (42_frame_decode.md R136): on
`STATUS = 0` the external deserializer gets `OB[0 .. OLEN-1]`, and nothing may be assumed of it. -/
def Payload.decodedSD {μ : Type} (sdParse : List Byte → Option μ) (t : State) : Payload.Decoded μ :=
  if t.x.status = statusOk then
    match sdParse (t.outputBytes t.x.olen.toNat) with
    | some m => .message m
    | none => .deserializationError
  else .failed t.x.status

end Sys2Proof.Machine
end

