-- ==== Sys2Proof/WellFormed.lean ====
section
/-!
DEFINITION. When an operation is well-formed for an instance of the block: its length operand lies in
the domain the spec gives the operation. The widths of the operands are in the types of `Instr`, so
there is no other check.
-/
namespace Sys2Proof

/-- The domain of each operation: `n <= IB_CAP` for CRC.COMPUTE (40_crc.md R97), `n <= MAX_FRAME` for
the decodes (42_frame_decode.md R131), every operand for the builds (30_encoding.md R77). -/
def Instr.wellFormed (p : Config.Params) : Instr → Bool
  | .crcCompute n => decide (n.toNat ≤ Machine.ibCap p)
  | .frameBuildLP _ _ => true
  | .frameBuildSD _ => true
  | .frameDecodeLP n => decide (n.toNat ≤ Machine.maxFrame)
  | .frameDecodeSD n => decide (n.toNat ≤ Machine.maxFrame)

end Sys2Proof
end

