-- ==== Sys2Proof/Safety.lean ====
section
/-!
DEFINITION. The terms the statements use: what a legal state of the block is, what two states have in
common, how far two byte sequences differ, and carry-less multiplication.
-/
namespace Sys2Proof.Machine

/-- The buffers are in canonical form and hold nothing at an index that does not exist (20_memory.md
R50, R51, R60). -/
abbrev State.BuffersWf (s : State) : Prop :=
  Memory.wf s.ib ∧ Memory.wf s.ob ∧
  (∀ c ∈ s.ib, c.1 < ibCap s.params) ∧ (∀ c ∈ s.ob, c.1 < obCap)

/-- The values the result registers can hold together (10_state.md R29 to R36, 60_exceptions.md R189):
their ranges, success with nothing expected or missed, failure with no output, and the two checksums as
the kind says (42_frame_decode.md R142). -/
abbrev Results.Legal (r : Results) : Prop :=
  r.status ∈ statusValues ∧
  r.olen.toNat ≤ obCap ∧
  r.crcComp.toNat < 65536 ∧ r.crcRecv.toNat < 65536 ∧
  r.cmdOut.toNat < 256 ∧ r.lenOut.toNat < 65536 ∧
  r.exp.toNat ≤ 65542 ∧ r.act.toNat ≤ 65542 ∧
  (r.status = statusOk → r.exp = 0 ∧ r.act = 0) ∧
  (r.status ≠ statusOk → r.olen = 0 ∧ r.cmdOut = 0 ∧ r.lenOut = 0) ∧
  (statusKind r.status ∈ [1, 2, 5] → r.crcComp = 0 ∧ r.crcRecv = 0) ∧
  (statusKind r.status = 3 → r.crcComp ≠ r.crcRecv ∧ r.exp = r.crcComp ∧ r.act = r.crcRecv) ∧
  (statusKind r.status = 4 → r.crcComp = r.crcRecv)

/-- Every byte of the valid output was written by the block (10_state.md R31, R39). -/
abbrev State.OutputWritten (s : State) : Prop :=
  ∀ a < s.x.olen.toNat, Memory.read s.ob a ≠ none

/-- The invariant of the block. -/
abbrev State.Inv (s : State) : Prop :=
  State.BuffersWf s ∧ Results.Legal s.x ∧ State.OutputWritten s

/-- Every byte of `OB` reads in `t` as it did in `s` (10_state.md R37). -/
abbrev SameOutput (s t : State) : Prop := ∀ a, t.outputByte a = s.outputByte a

/-- What no operation changes: `IB`, the parameters, `CW`, the host's pending actions, the key and the
number of resets (10_state.md R37, 60_exceptions.md R189, R194). -/
abbrev SameSurroundings (s t : State) : Prop :=
  t.ib = s.ib ∧ t.params = s.params ∧ t.cw = s.cw ∧ t.host = s.host ∧ t.unitKey = s.unitKey ∧
  t.resets = s.resets

/-- `OB[0 ..]` holds these bytes and every byte beyond them is as it was (10_state.md R37). -/
abbrev OutputIs (s t : State) (out : List Byte) : Prop :=
  ∀ a, t.outputByte a = if h : a < out.length then out[a] else s.outputByte a

/-- The number of bits that are 1. -/
def popcount (b : Byte) : Nat := (byteBits b).count true

/-- In how many bits two byte sequences of one length differ. -/
def bitDistance (xs ys : List Byte) : Nat := (List.zipWith (fun x y => popcount (x ^^^ y)) xs ys).sum

/-- Carry-less multiplication of two polynomials over GF(2), written as numbers, bit i the coefficient
of x^i; by recursion on the bits of the first, most significant first (40_crc.md R91). -/
def clmulBits (b : Nat) : List Bool → Nat
  | [] => 0
  | q :: qs => (if q then b <<< qs.length else 0) ^^^ clmulBits b qs

/-- A message as a polynomial, its first bit the highest power (40_crc.md R96 b): a bit sequence as a
number, most significant bit first. -/
def bitsToNat (bits : List Bool) : Nat := bits.foldl (fun v b => 2 * v + b.toNat) 0

end Sys2Proof.Machine
end

