-- ==== Sys2Proof/Certificates/Slice0/Obligations.lean ====
section
/-!
DEFINITION. The statements for the provers, one `def Obligations.<Name> : Prop` each. A statement about
an operation names every result register and says what `OB` reads as; `SameSurroundings` and `OutputIs`
or `SameOutput` (Sys2Proof/Safety.lean) are its frame.
-/

open Sys2Proof Sys2Proof.Machine

/-! ## The Checksum Engine -/

/-- 40_crc.md R92: the bit step in the rule's own arithmetic, on unbounded naturals masked to 16 bits. -/
def Obligations.CrcBitStepArithmetic : Prop :=
  ∀ (r : Half) (b : Bool),
    (crcBit r b).toNat =
      if (r.toNat >>> 15) ^^^ b.toNat = 1 then ((r.toNat <<< 1) &&& 0xFFFF) ^^^ 0x8005
      else (r.toNat <<< 1) &&& 0xFFFF

/-- 40_crc.md R93: the byte step applies the bit step from bit 7 down to bit 0, and its second form is
the same function. -/
def Obligations.CrcByteFormsAgree : Prop :=
  ∀ (r : Half) (x : Byte),
    crcByte r x =
      crcBit (crcBit (crcBit (crcBit (crcBit (crcBit (crcBit (crcBit r
        (x.getLsbD 7)) (x.getLsbD 6)) (x.getLsbD 5)) (x.getLsbD 4))
        (x.getLsbD 3)) (x.getLsbD 2)) (x.getLsbD 1)) (x.getLsbD 0) ∧
    crcByteShift r x = crcByte r x

/-- 40_crc.md R94: the table form of the byte step, and the table entries the rule lists. -/
def Obligations.CrcTableFormAgrees : Prop :=
  (∀ (r : Half) (x : Byte), crcByteTable r x = crcByte r x) ∧
  (List.range 16).map (fun i => crcTable (BitVec.ofNat 8 i)) =
    [0x0000, 0x8005, 0x800F, 0x000A, 0x801B, 0x001E, 0x0014, 0x8011,
     0x8033, 0x0036, 0x003C, 0x8039, 0x0028, 0x802D, 0x8027, 0x0022] ∧
  crcTable 0x47 = 0x0192 ∧ crcTable 0x80 = 0x8303 ∧ crcTable 0xFF = 0x0202

/-- 40_crc.md R96 (b): the register after a message is the remainder of I(x) x^k + M(x) x^16 by G(x); the
quotient is some polynomial, and the register, of 16 bits, has the lower degree. -/
def Obligations.Crc16IsPolynomialRemainder : Prop :=
  ∀ bs : List Byte, ∃ quotient : List Bool,
    (0x800D <<< (8 * bs.length)) ^^^ (bitsToNat (bs.flatMap byteBits) <<< 16) =
      clmulBits 0x18005 quotient ^^^ (crc16 bs).toNat

/-- 40_crc.md R96 (c), the residue law: a body with its trailer checksums to zero. -/
def Obligations.Crc16ResidueIsZero : Prop :=
  ∀ bs : List Byte, crc16 (bs ++ [hi8 (crc16 bs), lo8 (crc16 bs)]) = 0

/-- 40_crc.md R96 (d), the single-bit law, with its odd-number clause on message and trailer together. -/
def Obligations.OddBitFlipsChangeTheChecksum : Prop :=
  (∀ bs cs : List Byte, cs.length = bs.length → bitDistance bs cs = 1 → crc16 cs ≠ crc16 bs) ∧
  (∀ bs cs : List Byte, ∀ t : Half, cs.length = bs.length →
    bitDistance (withTrailer bs) (cs ++ be16Bytes t) % 2 = 1 → t ≠ crc16 cs)

/-! ## The command word -/

/-- 30_encoding.md R70: the three fields of the command word as numbers, and that they are all of it. -/
def Obligations.CommandWordFields : Prop :=
  (∀ w : Word, (cwOpc w).toNat = w.toNat / 2 ^ 24 ∧ (cwArg w).toNat = w.toNat / 2 ^ 16 % 256 ∧
    (cwLen w).toNat = w.toNat % 65536 ∧ commandWord (cwOpc w) (cwArg w) (cwLen w) = w) ∧
  (∀ i : Instr, cwOpc (encode i) = i.opc ∧ cwArg (encode i) = i.arg ∧ cwLen (encode i) = i.len) ∧
  (∀ i : Instr, (encode i).toNat = (i.opc.toNat <<< 24) ||| (i.arg.toNat <<< 16) ||| i.len.toNat)

/-- 30_encoding.md R70, R71, R75: decoding and encoding are inverse to each other, in both directions, on
every operation with every operand and on every word. -/
def Obligations.DecodeEncodeAgree : Prop :=
  ∀ (w : Word) (i : Instr), decode w = .ok i ↔ w = encode i

/-- 30_encoding.md R75: a word decodes to the operation of a row of the opcode table exactly when it has
that row's match under its mask; the class is the high nibble of the code and the framing variant of a
build or decode its bit 0. -/
def Obligations.OpcodeTableDecides : Prop :=
  (∀ w : Word, ∀ row ∈ opcodeTable,
    (w &&& row.mask = row.bits ↔ ∃ i, decode w = .ok i ∧ i.mnemonic = row.mnemonic)) ∧
  (∀ n : Half, (cwOpc (encode (.crcCompute n))) = 0x01) ∧
  (∀ cmd : Byte, ∀ n : Half, (cwOpc (encode (.frameBuildLP cmd n))) = 0x10) ∧
  (∀ n : Half, (cwOpc (encode (.frameBuildSD n))) = 0x11) ∧
  (∀ n : Half, (cwOpc (encode (.frameDecodeLP n))) = 0x20) ∧
  (∀ n : Half, (cwOpc (encode (.frameDecodeSD n))) = 0x21) ∧
  (∀ i : Instr, i.opc.extractLsb' 4 4 =
    match i with
    | .crcCompute _ => 0
    | .frameBuildLP _ _ => 1
    | .frameBuildSD _ => 1
    | .frameDecodeLP _ => 2
    | .frameDecodeSD _ => 2) ∧
  (∀ (cmd : Byte) (n : Half),
    (Instr.frameBuildLP cmd n).opc.getLsbD 0 = false ∧ (Instr.frameDecodeLP n).opc.getLsbD 0 = false ∧
    (Instr.frameBuildSD n).opc.getLsbD 0 = true ∧ (Instr.frameDecodeSD n).opc.getLsbD 0 = true)

/-- 30_encoding.md R76: a word with a reserved operation code is refused: no step and no result. -/
def Obligations.ReservedOpcodesRefused : Prop :=
  ∀ (s : State) (w : Word) (rest : List HostAction), s.host = .issue w :: rest →
    cwOpc w ∉ [0x01, 0x10, 0x11, 0x20, 0x21] → step s = .refused (.reservedOpcode (cwOpc w))

/-- 30_encoding.md R77: a nonzero `ARG` where it is unused is refused in the same way; no value of `LEN`,
and no value of `ARG` under FRAME.BUILD.LP, is reserved. -/
def Obligations.ReservedArgumentsRefused : Prop :=
  (∀ (s : State) (w : Word) (rest : List HostAction), s.host = .issue w :: rest →
    cwOpc w ∈ [0x01, 0x11, 0x20, 0x21] → cwArg w ≠ 0 →
      step s = .refused (.reservedArgument (cwOpc w) (cwArg w))) ∧
  (∀ w : Word, cwOpc w ∈ [0x01, 0x11, 0x20, 0x21] → cwArg w = 0 →
    ∃ i, decode w = .ok i ∧ i.opc = cwOpc w ∧ i.len = cwLen w) ∧
  (∀ w : Word, cwOpc w = 0x10 → decode w = .ok (.frameBuildLP (cwArg w) (cwLen w)))

/-- spec/opcode_table.json, 95_test_vectors.md sections 3 to 8: a few words, bit by bit. -/
def Obligations.CommandWordSamples : Prop :=
  decode 0b00000001_00000000_00000000_00001001#32 = .ok (.crcCompute 9) ∧
  decode 0b00010000_00000111_00000011_11111001#32 = .ok (.frameBuildLP 7 1017) ∧
  decode 0b00010001_00000000_00000000_00000100#32 = .ok (.frameBuildSD 4) ∧
  decode 0b00100000_00000000_00000000_00000111#32 = .ok (.frameDecodeLP 7) ∧
  decode 0b00100001_00000000_00000100_00000000#32 = .ok (.frameDecodeSD 1024) ∧
  decode 0x01010009#32 = .error (.argument 0x01 0x01) ∧
  decode 0x12000000#32 = .error (.opcode 0x12)

/-! ## Steps, and the host's actions -/

/-- 10_state.md R26, 30_encoding.md R71, R72: when the host's next action is to write `CW`, the step
latches the word and is the decoded operation, on the state with that action taken off the list. That
the operation comes from a list of host actions is the model's form (log entry 1). -/
def Obligations.StepRunsDecodedOperation : Prop :=
  ∀ (s : State) (w : Word) (rest : List HostAction) (i : Instr),
    s.host = .issue w :: rest → decode w = .ok i → step s = exec i { s with host := rest, cw := w }

/-- 20_memory.md R50, R56: a host write that stays below `IB_CAP` puts its bytes into `IB` in index order
and changes nothing else. The list of host actions is the model's form (log entry 1). -/
def Obligations.HostWriteLoadsInput : Prop :=
  ∀ (s : State) (a : Nat) (bytes : List Byte) (rest : List HostAction),
    s.host = .writeInput a bytes :: rest → a + bytes.length ≤ ibCap s.params →
    ∃ t, step s = .next t ∧
      (∀ k, t.inputByte k = if h : a ≤ k ∧ k - a < bytes.length then bytes[k - a] else s.inputByte k) ∧
      t.ob = s.ob ∧ t.x = s.x ∧ t.cw = s.cw ∧ t.work = s.work ∧ t.params = s.params ∧
      t.unitKey = s.unitKey ∧ t.resets = s.resets ∧ t.ops = s.ops ∧ t.host = rest

/-- 30_encoding.md R86: the host's copy of the output makes `IB[0 .. OLEN-1]` equal to
`OB[0 .. OLEN-1]` and changes nothing else. The list of host actions is the model's form (log entry 1). -/
def Obligations.HostCopyMovesOutput : Prop :=
  ∀ (s : State) (rest : List HostAction), s.host = .copyOutput :: rest → s.x.olen.toNat ≤ 1024 →
    ∃ t, step s = .next t ∧
      (∀ k, t.inputByte k = if k < s.x.olen.toNat then s.outputByte k else s.inputByte k) ∧
      t.ob = s.ob ∧ t.x = s.x ∧ t.cw = s.cw ∧ t.work = s.work ∧ t.params = s.params ∧
      t.unitKey = s.unitKey ∧ t.resets = s.resets ∧ t.ops = s.ops ∧ t.host = rest

/-- 10_state.md R38, 70_reset_and_hazards.md R200, R203: the reset event makes every result register 0,
leaves no byte of either buffer written, and leaves the parameters and the host alone. -/
def Obligations.ResetEventClearsResults : Prop :=
  ∀ (s : State) (rest : List HostAction), s.host = .reset :: rest →
    ∃ t, step s = .next t ∧ (∀ i, t.readResult i = 0) ∧
      (∀ a, Memory.read t.ib a = none ∧ Memory.read t.ob a = none) ∧
      t.params = s.params ∧ t.unitKey = s.unitKey ∧ t.host = rest

/-- 10_state.md R38, 00_scope.md R9: the state after reset has every result register 0, no byte of
either buffer written, and the default parameters. -/
def Obligations.ResetState : Prop :=
  (∀ i, State.reset.readResult i = 0) ∧
  (∀ a, Memory.read State.reset.ib a = none ∧ Memory.read State.reset.ob a = none) ∧
  ibCap State.reset.params = 1024 ∧
  (∀ b : Byte, b ∈ State.reset.params.cmdSet ↔ 1 ≤ b.toNat ∧ b.toNat ≤ 8)

/-! ## The operations -/

/-- 40_crc.md R97: CRC.COMPUTE inside and outside its domain, its encoding, and the command word and the
checksums of its corner case and worked example. -/
def Obligations.CrcComputeEffect : Prop :=
  (∀ (n : Half) (s : State),
      (n.toNat ≤ ibCap s.params → ∃ t, exec (.crcCompute n) s = .next t ∧ SameSurroundings s t ∧
        t.x = ⟨0, 0, (crc16 (s.input n.toNat)).setWidth 32, 0, 0, 0, 0, 0⟩ ∧ SameOutput s t) ∧
      (ibCap s.params < n.toNat → exec (.crcCompute n) s = .refused (.lengthBeyondInputBuffer n))) ∧
  (∀ n, encode (.crcCompute n) = commandWord 0x01 0 n) ∧ encode (.crcCompute 9) = 0x01000009 ∧
  crc16 [] = 0x800D ∧ crc16 [0x31, 0x32, 0x33, 0x34, 0x35, 0x36, 0x37, 0x38, 0x39] = 0x9ECF

/-- 41_frame_build.md R112: FRAME.BUILD.LP, its two failures in their order and its frame byte by byte;
bytes of `OB` beyond the frame are as they were. With its encoding, and the command word and the checksum
of the worked example. -/
def Obligations.FrameBuildLPEffect : Prop :=
  (∀ (cmd : Byte) (n : Half) (s : State),
      (cmd ∉ s.params.cmdSet →
        ∃ t, exec (.frameBuildLP cmd n) s = .next t ∧ SameSurroundings s t ∧ SameOutput s t ∧
          t.x = ⟨0x41, 0, 0, 0, 0, 0, 0, cmd.setWidth 32⟩) ∧
      (cmd ∈ s.params.cmdSet → 1017 < n.toNat →
        ∃ t, exec (.frameBuildLP cmd n) s = .next t ∧ SameSurroundings s t ∧ SameOutput s t ∧
          t.x = ⟨0x05, 0, 0, 0, 0, 0, 1024, BitVec.ofNat 32 (n.toNat + 7)⟩) ∧
      (cmd ∈ s.params.cmdSet → n.toNat ≤ 1017 →
        ∃ t, exec (.frameBuildLP cmd n) s = .next t ∧ SameSurroundings s t ∧
          let c := crc16 ([0x47, 0x01, cmd, hi8 n, lo8 n] ++ s.input n.toNat)
          t.x = ⟨0, BitVec.ofNat 32 (n.toNat + 7), c.setWidth 32, 0, 0, 0, 0, 0⟩ ∧
          t.outputByte 0 = 0x47 ∧ t.outputByte 1 = 0x01 ∧ t.outputByte 2 = cmd ∧
          t.outputByte 3 = hi8 n ∧ t.outputByte 4 = lo8 n ∧
          (∀ a < n.toNat, t.outputByte (5 + a) = s.inputByte a) ∧
          t.outputByte (n.toNat + 5) = hi8 c ∧ t.outputByte (n.toNat + 6) = lo8 c ∧
          (∀ a, n.toNat + 7 ≤ a → t.outputByte a = s.outputByte a))) ∧
  (∀ cmd n, encode (.frameBuildLP cmd n) = commandWord 0x10 cmd n) ∧
  encode (.frameBuildLP 0x01 0) = 0x10010000 ∧ crc16 [0x47, 0x01, 0x01, 0x00, 0x00] = 0xD37C

/-- 41_frame_build.md R116: FRAME.BUILD.SD, its one failure and its frame byte by byte; bytes of `OB`
beyond the frame are as they were. With its encoding, and the command word and the checksum of the worked
example. -/
def Obligations.FrameBuildSDEffect : Prop :=
  (∀ (n : Half) (s : State),
      (1022 < n.toNat →
        ∃ t, exec (.frameBuildSD n) s = .next t ∧ SameSurroundings s t ∧ SameOutput s t ∧
          t.x = ⟨0x05, 0, 0, 0, 0, 0, 1024, BitVec.ofNat 32 (n.toNat + 2)⟩) ∧
      (n.toNat ≤ 1022 →
        ∃ t, exec (.frameBuildSD n) s = .next t ∧ SameSurroundings s t ∧
          let c := crc16 (s.input n.toNat)
          t.x = ⟨0, BitVec.ofNat 32 (n.toNat + 2), c.setWidth 32, 0, 0, 0, 0, 0⟩ ∧
          (∀ a < n.toNat, t.outputByte a = s.inputByte a) ∧
          t.outputByte n.toNat = hi8 c ∧ t.outputByte (n.toNat + 1) = lo8 c ∧
          (∀ a, n.toNat + 2 ≤ a → t.outputByte a = s.outputByte a))) ∧
  (∀ n, encode (.frameBuildSD n) = commandWord 0x11 0 n) ∧ encode (.frameBuildSD 4) = 0x11000004 ∧
  crc16 [0x08, 0x01, 0x10, 0x47] = 0x415D

/-- 42_frame_decode.md R132: FRAME.DECODE.LP, all eight steps in their order, on a frame of at most 1024
bytes; beyond that it is refused (R131). With its encoding, and the command word and the checksum of the
worked example. -/
def Obligations.FrameDecodeLPEffect : Prop :=
  (∀ (n : Half) (s : State),
      (n.toNat ≤ 1024 →
        ∃ t, exec (.frameDecodeLP n) s = .next t ∧ SameSurroundings s t ∧
          let F := s.inputByte
          let m := n.toNat - 2
          let recv := be16 (F (n.toNat - 2)) (F (n.toNat - 1))
          let comp := crc16 (s.input m)
          let c : Word := comp.setWidth 32
          let len := be16 (F 3) (F 4)
          if n.toNat < 2 then
            t.x = ⟨0x02, 0, 0, 0, 0, 0, 2, n.setWidth 32⟩ ∧ SameOutput s t
          else if recv ≠ comp then
            t.x = ⟨0x03, 0, c, recv.setWidth 32, 0, 0, c, recv.setWidth 32⟩ ∧ SameOutput s t
          else if m < 5 then
            t.x = ⟨0x14, 0, c, c, 0, 0, 5, BitVec.ofNat 32 m⟩ ∧ SameOutput s t
          else if F 0 ≠ 0x47 then
            t.x = ⟨0x24, 0, c, c, 0, 0, 0x47, (F 0).setWidth 32⟩ ∧ SameOutput s t
          else if F 1 ≠ 0x01 then
            t.x = ⟨0x34, 0, c, c, 0, 0, 0x01, (F 1).setWidth 32⟩ ∧ SameOutput s t
          else if F 2 ∉ s.params.cmdSet then
            t.x = ⟨0x44, 0, c, c, 0, 0, 0, (F 2).setWidth 32⟩ ∧ SameOutput s t
          else if len.toNat ≠ m - 5 then
            t.x = ⟨0x54, 0, c, c, 0, 0, len.setWidth 32, BitVec.ofNat 32 (m - 5)⟩ ∧ SameOutput s t
          else
            t.x = ⟨0, len.setWidth 32, c, c, (F 2).setWidth 32, len.setWidth 32, 0, 0⟩ ∧
            (∀ a, t.outputByte a = if a < len.toNat then F (5 + a) else s.outputByte a)) ∧
      (1024 < n.toNat → exec (.frameDecodeLP n) s = .refused (.lengthBeyondMaxFrame n))) ∧
  (∀ n, encode (.frameDecodeLP n) = commandWord 0x20 0 n) ∧ encode (.frameDecodeLP 8) = 0x20000008 ∧
  crc16 [0x47, 0x01, 0x04, 0x00, 0x01, 0x01] = 0xBCEF

/-- 42_frame_decode.md R137: FRAME.DECODE.SD, all three steps in their order, on a frame of at most 1024
bytes; beyond that it is refused (R131). With its encoding, and the command word and the checksum of the
worked example. -/
def Obligations.FrameDecodeSDEffect : Prop :=
  (∀ (n : Half) (s : State),
      (n.toNat ≤ 1024 →
        ∃ t, exec (.frameDecodeSD n) s = .next t ∧ SameSurroundings s t ∧
          let F := s.inputByte
          let recv := be16 (F (n.toNat - 2)) (F (n.toNat - 1))
          let comp := crc16 (s.input (n.toNat - 2))
          let c : Word := comp.setWidth 32
          if n.toNat < 2 then
            t.x = ⟨0x02, 0, 0, 0, 0, 0, 2, n.setWidth 32⟩ ∧ SameOutput s t
          else if recv ≠ comp then
            t.x = ⟨0x03, 0, c, recv.setWidth 32, 0, 0, c, recv.setWidth 32⟩ ∧ SameOutput s t
          else
            t.x = ⟨0, BitVec.ofNat 32 (n.toNat - 2), c, c, 0, 0, 0, 0⟩ ∧
            (∀ a, t.outputByte a = if a < n.toNat - 2 then F a else s.outputByte a)) ∧
      (1024 < n.toNat → exec (.frameDecodeSD n) s = .refused (.lengthBeyondMaxFrame n))) ∧
  (∀ n, encode (.frameDecodeSD n) = commandWord 0x21 0 n) ∧ encode (.frameDecodeSD 6) = 0x21000006 ∧
  crc16 [0x08, 0x01, 0x10, 0x47] = 0x415D

/-- 42_frame_decode.md R132 step 8: FRAME.DECODE.LP completes with its payload delivered on every frame
that passes the checks. -/
def Obligations.FrameDecodeLPDeliversPayload : Prop :=
  ∀ (cmd : Byte) (payload : List Byte) (n : Half) (s : State),
    cmd ∈ s.params.cmdSet → n.toNat = payload.length + 7 → payload.length ≤ 1017 →
    s.input n.toNat =
      withTrailer ([0x47, 0x01, cmd] ++ be16Bytes (BitVec.ofNat 16 payload.length) ++ payload) →
    ∃ t, exec (.frameDecodeLP n) s = .next t ∧ SameSurroundings s t ∧ t.x.status = 0 ∧
      t.x.cmdOut = cmd.setWidth 32 ∧ t.x.lenOut.toNat = payload.length ∧
      t.x.olen.toNat = payload.length ∧ t.x.crcComp = t.x.crcRecv ∧ t.x.exp = 0 ∧ t.x.act = 0 ∧
      OutputIs s t payload

/-- 42_frame_decode.md R137 step 3: FRAME.DECODE.SD completes with the message delivered on every frame
whose trailer is right. -/
def Obligations.FrameDecodeSDDeliversMessage : Prop :=
  ∀ (message : List Byte) (n : Half) (s : State),
    n.toNat = message.length + 2 → message.length ≤ 1022 → s.input n.toNat = withTrailer message →
    ∃ t, exec (.frameDecodeSD n) s = .next t ∧ SameSurroundings s t ∧ t.x.status = 0 ∧
      t.x.olen.toNat = message.length ∧ t.x.crcComp = (crc16 message).setWidth 32 ∧
      t.x.crcRecv = t.x.crcComp ∧ t.x.cmdOut = 0 ∧ t.x.lenOut = 0 ∧ t.x.exp = 0 ∧ t.x.act = 0 ∧
      OutputIs s t message

/-! ## What all operations have in common -/

/-- 10_state.md R37, R31; 60_exceptions.md R189: the frame of every operation. All eight result registers
are written (R27); `IB`, the parameters, `CW`, the host's actions and every byte of `OB` from `OLEN` on
are unchanged, which is all of `OB` for CRC.COMPUTE and for a failure. -/
def Obligations.OperationFrame : Prop :=
  ∀ (i : Instr) (s t : State), exec i s = .next t →
    SameSurroundings s t ∧ t.x.olen.toNat ≤ 1024 ∧
    (∀ a, t.x.olen.toNat ≤ a → t.outputByte a = s.outputByte a ∧ Memory.read t.ob a = Memory.read s.ob a) ∧
    (∀ a, t.inputByte a = s.inputByte a) ∧
    (∀ n, i = .crcCompute n → t.x.olen = 0)

/-- 60_exceptions.md R189, 41_frame_build.md R114, 42_frame_decode.md R135: a failed operation leaves
nothing but its result registers. -/
def Obligations.FailureLeavesOnlyResults : Prop :=
  ∀ (i : Instr) (s t : State), exec i s = .next t → t.x.status ≠ 0 →
    SameSurroundings s t ∧ t.ob = s.ob ∧ t.x.olen = 0 ∧ t.x.cmdOut = 0 ∧ t.x.lenOut = 0

/-- 00_scope.md R12: inside its domain every operation is a total function of the command word and of the
bytes below its length, and of nothing else. -/
def Obligations.OperationsAreFunctionsOfTheirInput : Prop :=
  ∀ (i : Instr) (s u : State), i.wellFormed s.params = true → u.params = s.params →
    (∀ a < i.len.toNat, u.inputByte a = s.inputByte a) →
    ∃ t v, exec i s = .next t ∧ exec i u = .next v ∧ v.x = t.x ∧
      ∀ a < t.x.olen.toNat, v.outputByte a = t.outputByte a

/-- 40_crc.md R97, 42_frame_decode.md R131, 60_exceptions.md R180: an operation completes exactly inside
its domain, is refused outside it, and never faults. -/
def Obligations.OperationsCompleteExactlyInDomain : Prop :=
  ∀ (i : Instr) (s : State),
    (i.wellFormed s.params = true → ∃ t, exec i s = .next t) ∧
    (i.wellFormed s.params = false → ∃ r, exec i s = .refused r) ∧
    (∀ r, exec i s ≠ .fault r)

/-- 20_memory.md R59: issuing the same operation again gives the same result registers and the same
`OB`. -/
def Obligations.OperationsAreIdempotent : Prop :=
  ∀ (i : Instr) (s t : State), exec i s = .next t →
    ∃ u, exec i t = .next u ∧ u.x = t.x ∧ ∀ a, u.outputByte a = t.outputByte a

/-- 10_state.md R29, 60_exceptions.md R182 table: which values of `STATUS` each operation can leave. -/
def Obligations.StatusValuesByOperation : Prop :=
  ∀ (s t : State) (cmd : Byte) (n : Half),
    (exec (.crcCompute n) s = .next t → t.x.status = 0x00) ∧
    (exec (.frameBuildLP cmd n) s = .next t → t.x.status ∈ [0x00, 0x41, 0x05]) ∧
    (exec (.frameBuildSD n) s = .next t → t.x.status ∈ [0x00, 0x05]) ∧
    (exec (.frameDecodeLP n) s = .next t →
      t.x.status ∈ [0x00, 0x02, 0x03, 0x14, 0x24, 0x34, 0x44, 0x54]) ∧
    (exec (.frameDecodeSD n) s = .next t → t.x.status ∈ [0x00, 0x02, 0x03])

/-! ## The error kinds -/

/-- 60_exceptions.md R183: ValidationError comes from FRAME.BUILD.LP with an unknown command and from
nothing else the block does. -/
def Obligations.ValidationErrorOnlyForUnknownCommand : Prop :=
  ∀ (i : Instr) (s t : State), exec i s = .next t →
    ((statusKind t.x.status = 1 ↔ ∃ cmd n, i = .frameBuildLP cmd n ∧ cmd ∉ s.params.cmdSet) ∧
     (∀ cmd n, i = .frameBuildLP cmd n → cmd ∉ s.params.cmdSet →
       t.x.status = 0x41 ∧ t.x.exp = 0 ∧ t.x.act = cmd.setWidth 32 ∧ t.x.crcComp = 0 ∧ t.x.crcRecv = 0))

/-- 60_exceptions.md R184: FrameTooShort comes from a decode of 0 or 1 bytes, before any byte is read,
and from nothing else; 2 bytes are not too short. -/
def Obligations.FrameTooShortBelowTwoBytes : Prop :=
  (∀ (i : Instr) (s t : State), exec i s = .next t →
    (statusKind t.x.status = 2 ↔ ∃ n : Half, n.toNat < 2 ∧ (i = .frameDecodeLP n ∨ i = .frameDecodeSD n))) ∧
  (∀ (n : Half) (s : State), n.toNat < 2 →
    ∃ t u, exec (.frameDecodeLP n) s = .next t ∧ exec (.frameDecodeSD n) s = .next u ∧
      t.x = ⟨0x02, 0, 0, 0, 0, 0, 2, n.setWidth 32⟩ ∧ u.x = t.x)

/-- 60_exceptions.md R185: ChecksumMismatch comes from a decode whose trailer is not the checksum of the
remainder, with both values reported, and from nothing else. -/
def Obligations.ChecksumMismatchReportsBothValues : Prop :=
  ∀ (i : Instr) (s t : State), exec i s = .next t →
    (statusKind t.x.status = 3 ↔
      ∃ n : Half, (i = .frameDecodeLP n ∨ i = .frameDecodeSD n) ∧ 2 ≤ n.toNat ∧
        be16 (s.inputByte (n.toNat - 2)) (s.inputByte (n.toNat - 1)) ≠ crc16 (s.input (n.toNat - 2))) ∧
    (∀ n : Half, (i = .frameDecodeLP n ∨ i = .frameDecodeSD n) → statusKind t.x.status = 3 →
      t.x.status = 0x03 ∧ t.x.crcComp = (crc16 (s.input (n.toNat - 2))).setWidth 32 ∧
      t.x.crcRecv = (be16 (s.inputByte (n.toNat - 2)) (s.inputByte (n.toNat - 1))).setWidth 32 ∧
      t.x.exp = t.x.crcComp ∧ t.x.act = t.x.crcRecv)

/-- 60_exceptions.md R186: DeserializationError comes from FRAME.DECODE.LP on a frame whose checksum has
matched, and from nothing else, with the first of its five sub-causes in their order. -/
def Obligations.DeserializationErrorCausesInOrder : Prop :=
  ∀ (i : Instr) (s t : State), exec i s = .next t →
    (statusKind t.x.status = 4 ↔
      ∃ n : Half, i = .frameDecodeLP n ∧ 2 ≤ n.toNat ∧
        be16 (s.inputByte (n.toNat - 2)) (s.inputByte (n.toNat - 1)) = crc16 (s.input (n.toNat - 2)) ∧
        (n.toNat - 2 < 5 ∨ s.inputByte 0 ≠ 0x47 ∨ s.inputByte 1 ≠ 0x01 ∨ s.inputByte 2 ∉ s.params.cmdSet ∨
          (be16 (s.inputByte 3) (s.inputByte 4)).toNat ≠ n.toNat - 7)) ∧
    (∀ n : Half, i = .frameDecodeLP n → statusKind t.x.status = 4 →
      t.x.crcComp = (crc16 (s.input (n.toNat - 2))).setWidth 32 ∧ t.x.crcRecv = t.x.crcComp ∧
      if n.toNat - 2 < 5 then
        t.x.status = 0x14 ∧ t.x.exp = 5 ∧ t.x.act = BitVec.ofNat 32 (n.toNat - 2)
      else if s.inputByte 0 ≠ 0x47 then
        t.x.status = 0x24 ∧ t.x.exp = 0x47 ∧ t.x.act = (s.inputByte 0).setWidth 32
      else if s.inputByte 1 ≠ 0x01 then
        t.x.status = 0x34 ∧ t.x.exp = 1 ∧ t.x.act = (s.inputByte 1).setWidth 32
      else if s.inputByte 2 ∉ s.params.cmdSet then
        t.x.status = 0x44 ∧ t.x.exp = 0 ∧ t.x.act = (s.inputByte 2).setWidth 32
      else
        t.x.status = 0x54 ∧ t.x.exp = (be16 (s.inputByte 3) (s.inputByte 4)).setWidth 32 ∧
        t.x.act = BitVec.ofNat 32 (n.toNat - 7))

/-- 60_exceptions.md R187: OversizeFrame comes from a build whose frame would exceed 1024 bytes, with the
would-be size reported, and from nothing else; no decode raises it. FRAME.BUILD.LP reports an unknown
command first (R188). -/
def Obligations.OversizeFrameOnlyFromBuilds : Prop :=
  ∀ (i : Instr) (s t : State), exec i s = .next t →
    (statusKind t.x.status = 5 ↔
      (∃ cmd, ∃ n : Half, i = .frameBuildLP cmd n ∧ cmd ∈ s.params.cmdSet ∧ 1024 < n.toNat + 7) ∨
      (∃ n : Half, i = .frameBuildSD n ∧ 1024 < n.toNat + 2)) ∧
    (statusKind t.x.status = 5 →
      t.x.status = 0x05 ∧ t.x.exp = 1024 ∧ t.x.crcComp = 0 ∧ t.x.crcRecv = 0 ∧ t.x.olen = 0 ∧ t.ob = s.ob ∧
      (∀ cmd, ∀ n : Half, i = .frameBuildLP cmd n → t.x.act.toNat = n.toNat + 7) ∧
      (∀ n : Half, i = .frameBuildSD n → t.x.act.toNat = n.toNat + 2))

/-- 42_frame_decode.md R142: what a host can conclude about the two checksums from `STATUS`, after any
operation. -/
def Obligations.StatusTellsChecksumsApart : Prop :=
  ∀ (i : Instr) (s t : State), exec i s = .next t →
    (statusKind t.x.status = 4 → t.x.crcComp = t.x.crcRecv) ∧
    (t.x.status = 0x03 → t.x.crcComp ≠ t.x.crcRecv)

/-! ## The laws of the codec -/

/-- 42_frame_decode.md R139: the length-prefixed round trip, in both directions. -/
def Obligations.LengthPrefixedRoundTrip : Prop :=
  (∀ (s : State) (cmd : Byte) (n : Half), cmd ∈ s.params.cmdSet → n.toNat ≤ 1017 →
    ∃ t, exec (.frameBuildLP cmd n) s = .next t ∧ t.x.status = 0 ∧ t.x.olen.toNat = n.toNat + 7 ∧
      ∀ u : State, u.params = s.params → (∀ a < n.toNat + 7, u.inputByte a = t.outputByte a) →
        ∃ v, exec (.frameDecodeLP (n + 7)) u = .next v ∧ v.x.status = 0 ∧
          v.x.cmdOut = cmd.setWidth 32 ∧ v.x.lenOut.toNat = n.toNat ∧ v.x.olen.toNat = n.toNat ∧
          ∀ a < n.toNat, v.outputByte a = s.inputByte a) ∧
  (∀ (s t : State) (n : Half), exec (.frameDecodeLP n) s = .next t → t.x.status = 0 →
    ∀ u : State, u.params = s.params → (∀ a < t.x.olen.toNat, u.inputByte a = t.outputByte a) →
      ∃ v, exec (.frameBuildLP (t.x.cmdOut.setWidth 8) (t.x.olen.setWidth 16)) u = .next v ∧
        v.x.status = 0 ∧ v.x.olen.toNat = n.toNat ∧ ∀ a < n.toNat, v.outputByte a = s.inputByte a)

/-- 42_frame_decode.md R140: the self-describing round trip. -/
def Obligations.SelfDescribingRoundTrip : Prop :=
  ∀ (s : State) (n : Half), n.toNat ≤ 1022 →
    ∃ t, exec (.frameBuildSD n) s = .next t ∧ t.x.status = 0 ∧
      t.outputBytes (n.toNat + 2) = withTrailer (s.input n.toNat) ∧
      ∀ u : State, (∀ a < n.toNat + 2, u.inputByte a = t.outputByte a) →
        ∃ v, exec (.frameDecodeSD (n + 2)) u = .next v ∧ v.x.status = 0 ∧ v.x.olen.toNat = n.toNat ∧
          ∀ a < n.toNat, v.outputByte a = s.inputByte a

/-- 42_frame_decode.md R141: a built frame of either variant with one bit flipped, or any odd number of
bits, anywhere in it, decodes to ChecksumMismatch. -/
def Obligations.TamperedFramesAreDetected : Prop :=
  (∀ (s t u : State) (cmd : Byte) (n : Half), exec (.frameBuildLP cmd n) s = .next t → t.x.status = 0 →
    bitDistance (t.outputBytes (n.toNat + 7)) (u.input (n.toNat + 7)) % 2 = 1 →
    ∃ v, exec (.frameDecodeLP (n + 7)) u = .next v ∧ v.x.status = 0x03) ∧
  (∀ (s t u : State) (n : Half), exec (.frameBuildSD n) s = .next t → t.x.status = 0 →
    bitDistance (t.outputBytes (n.toNat + 2)) (u.input (n.toNat + 2)) % 2 = 1 →
    ∃ v, exec (.frameDecodeSD (n + 2)) u = .next v ∧ v.x.status = 0x03)

/-! ## Invariants -/

/-- 10_state.md R29 to R37, 20_memory.md R60: every step keeps the invariant: both buffers in canonical
form and inside their indices, the result registers legal, and the valid output written. -/
def Obligations.StepKeepsInvariant : Prop :=
  ∀ s t : State, s.Inv → step s = .next t → t.Inv

/-- The state after reset meets the invariant. -/
def Obligations.ResetMeetsInvariant : Prop := State.reset.Inv

/-- 60_exceptions.md R194, 70_reset_and_hazards.md R203: no step changes the instance's parameters. -/
def Obligations.ParametersNeverChange : Prop :=
  ∀ s t : State, step s = .next t → t.params = s.params

/-- 20_memory.md R60, 60_exceptions.md R180: the only fault a step can take, from a state that meets the
invariant, is a host write beyond `IB_CAP`; no operation faults. That such a write is a fault is the
model's choice (log entry 6). -/
def Obligations.OnlyHostWritesFault : Prop :=
  ∀ (s : State) (r : Fault), s.Inv → step s = .fault r →
    ∃ a bytes rest, s.host = .writeInput a bytes :: rest ∧ ibCap s.params < a + bytes.length

/-! ## The payload builders outside the block -/

/-- 45_payload_collaborators.md R154: the device reset has an empty payload, and the block builds the
frame the document gives from it. -/
def Obligations.DeviceResetFrame : Prop :=
  (∀ c : Payload.Codes, Payload.build c .reset = .ok []) ∧
  Payload.Request.command .reset = .reset ∧ CommandId.code .reset = 0x01 ∧
  (∀ s : State, 0x01 ∈ s.params.cmdSet →
    ∃ t, exec (.frameBuildLP 0x01 0) s = .next t ∧ t.x.status = 0 ∧ t.x.olen = 7 ∧
      t.outputBytes 7 = [0x47, 0x01, 0x01, 0x00, 0x00, 0xD3, 0x7C])

/-- 45_payload_collaborators.md R157, R158: the builders of the device mode and of the antenna. -/
def Obligations.SelectorConstraints : Prop :=
  (∀ b, (Payload.Request.setMode b).command.code = 0x04 ∧ (Payload.Request.setAntenna b).command.code = 0x05) ∧
  ∀ (c : Payload.Codes) (b : Byte),
    (b = c.primaryController ∨ b = c.passiveListener → Payload.build c (.setMode b) = .ok [b]) ∧
    (¬ (b = c.primaryController ∨ b = c.passiveListener) →
      ∃ v, Payload.build c (.setMode b) = .error v ∧ statusKind v.status = 1) ∧
    (b = c.internalAntenna ∨ b = c.externalAntenna → Payload.build c (.setAntenna b) = .ok [b]) ∧
    (¬ (b = c.internalAntenna ∨ b = c.externalAntenna) →
      ∃ v, Payload.build c (.setAntenna b) = .error v ∧ statusKind v.status = 1)

/-- 45_payload_collaborators.md R159: the builder of the baudrate, with the open question whether the "no
effect" port is acceptable as the collaborator's parameter. -/
def Obligations.BaudrateConstraints : Prop :=
  (∀ port code, (Payload.Request.setBaudrate port code).command.code = 0x06) ∧
  ∀ (c : Payload.Codes) (port code : Byte),
    let ok := port ∈ c.portSet ∧ (c.baudrateRejectsNoEffect = true → port ≠ c.portNoEffect) ∧ code ∈ c.baudTable
    (ok → Payload.build c (.setBaudrate port code) = .ok [port, code]) ∧
    (¬ ok → ∃ v, Payload.build c (.setBaudrate port code) = .error v ∧ statusKind v.status = 1)

/-- 45_payload_collaborators.md R160: the modbus one-shot builder. -/
def Obligations.ModbusOneShotConstraints : Prop :=
  (∀ port embedded, (Payload.Request.modbusOneShot port embedded).command.code = 0x07) ∧
  ∀ (c : Payload.Codes) (port : Byte) (embedded : List Byte),
    (port ∈ c.portSet ∧ port ≠ c.portNoEffect ∧ embedded.length ≤ 256 →
      Payload.build c (.modbusOneShot port embedded) = .ok ([port] ++ embedded)) ∧
    (¬ (port ∈ c.portSet ∧ port ≠ c.portNoEffect ∧ embedded.length ≤ 256) →
      ∃ v, Payload.build c (.modbusOneShot port embedded) = .error v ∧ statusKind v.status = 1)

/-- 45_payload_collaborators.md R161: the modbus periodic builder, with the open port rule as the
collaborator's parameter. -/
def Obligations.ModbusPeriodicConstraints : Prop :=
  (∀ port index interval embedded,
    (Payload.Request.modbusPeriodic port index interval embedded).command.code = 0x08) ∧
  ∀ (c : Payload.Codes) (port : Byte) (index : Nat) (interval : Int) (embedded : List Byte),
    let ok := (c.periodicChecksPort = true → port ∈ c.portSet ∧ port ≠ c.portNoEffect) ∧
      1 ≤ index ∧ index ≤ 64 ∧ 0 ≤ interval ∧ interval ≤ 2592000 ∧ embedded.length ≤ 256
    (ok → ∃ b₂ b₁ b₀ : Byte, (65536 * b₂.toNat + 256 * b₁.toNat + b₀.toNat : Int) = interval ∧
      Payload.build c (.modbusPeriodic port index interval embedded) =
        .ok ([port, BitVec.ofNat 8 index, b₂, b₁, b₀] ++ embedded)) ∧
    (¬ ok → ∃ v, Payload.build c (.modbusPeriodic port index interval embedded) = .error v ∧
      statusKind v.status = 1)

/-- 45_payload_collaborators.md R162: no payload builder can cause OversizeFrame. -/
def Obligations.PayloadBuildersNeverOversize : Prop :=
  ∀ (c : Payload.Codes) (r : Payload.Request) (p : List Byte), Payload.build c r = .ok p →
    p.length ≤ 261 ∧ (∀ port e, r = .modbusOneShot port e → p.length ≤ 257) ∧
    ∀ s : State, ∃ t, exec (.frameBuildLP r.command.code (BitVec.ofNat 16 p.length)) s = .next t ∧
      statusKind t.x.status ≠ 5

/-- 45_payload_collaborators.md R150, R152: a builder that passes its checks ends in the build of its
framing scheme, which runs to its end in two steps of the block, whatever the length of a serialized
message below 65536; one that fails issues nothing. The list of host actions is the model's form (log
entry 1), and so is how the host places a message longer than `IB` (log entry 15). -/
def Obligations.BuildersEndInABuild : Prop :=
  (∀ (c : Payload.Codes) (r : Payload.Request) (s : State) (rest : List HostAction),
    (∀ v, Payload.build c r = .error v → Payload.actions c r = .error v) ∧
    (∀ p, Payload.build c r = .ok p → ∃ acts, Payload.actions c r = .ok acts ∧
      (s.host = acts ++ rest → ∃ u t, step s = .next u ∧ step u = .next t ∧ t.host = rest ∧
        (r.command.code ∈ s.params.cmdSet → t.x.status = 0 ∧ t.x.olen.toNat = p.length + 7 ∧
          t.outputBytes (p.length + 7) =
            withTrailer ([0x47, 0x01, r.command.code] ++ be16Bytes (BitVec.ofNat 16 p.length) ++ p)) ∧
        (r.command.code ∉ s.params.cmdSet → t.x.status = 0x41 ∧ SameOutput s t)))) ∧
  (∀ (serialize : Payload.Command → List Byte) (c : Payload.Codes) (r : Payload.Request) (s : State)
      (rest : List HostAction),
    (∀ v, Payload.check c c.sdPorts r = .error v →
      Payload.actionsSD s.params serialize c r = .error (.validation v)) ∧
    (∀ cmd, Payload.check c c.sdPorts r = .ok cmd → (serialize cmd).length < 65536 →
      ∃ acts, Payload.actionsSD s.params serialize c r = .ok acts ∧
      (s.host = acts ++ rest → ∃ u t, step s = .next u ∧ step u = .next t ∧ t.host = rest ∧
        ((serialize cmd).length ≤ 1022 → t.x.status = 0 ∧ t.x.olen.toNat = (serialize cmd).length + 2 ∧
          t.outputBytes ((serialize cmd).length + 2) = withTrailer (serialize cmd)) ∧
        (1022 < (serialize cmd).length → SameOutput s t ∧
          t.x = ⟨0x05, 0, 0, 0, 0, 0, 1024, BitVec.ofNat 32 ((serialize cmd).length + 2)⟩))))
end

