-- ==== Sys2Proof/Laws/Bytes.lean ====
section
/-!
SUPPORT. Byte order, input bytes and the checksum loop: the small lemmas of `Machine/Operands.lean`,
`Machine/Crc.lean` and `Machine/Frame.lean`.
-/
namespace Sys2Proof.Machine

@[simp] theorem hi8_be16 (a b : Byte) : hi8 (be16 a b) = a := by
  apply BitVec.eq_of_getLsbD_eq
  intro i hi
  simp only [hi8, be16, BitVec.getLsbD_extractLsb', BitVec.getLsbD_append]
  simp [hi]

@[simp] theorem lo8_be16 (a b : Byte) : lo8 (be16 a b) = b := by
  apply BitVec.eq_of_getLsbD_eq
  intro i hi
  simp only [lo8, be16, BitVec.getLsbD_extractLsb', BitVec.getLsbD_append]
  simp [hi]

@[simp] theorem be16_hi8_lo8 (v : Half) : be16 (hi8 v) (lo8 v) = v := by
  apply BitVec.eq_of_getLsbD_eq
  intro i hi
  simp only [hi8, lo8, be16, BitVec.getLsbD_extractLsb', BitVec.getLsbD_append]
  by_cases h : i < 8
  · simp [h]
  · simp [h, Nat.add_sub_cancel' (Nat.le_of_not_lt h)]
    omega

@[simp] theorem be16Bytes_length (v : Half) : (be16Bytes v).length = 2 := rfl

@[simp] theorem State.input_length (s : State) (n : Nat) : (s.input n).length = n := by simp [State.input]

@[simp] theorem State.input_getElem (s : State) (n i : Nat) (h : i < (s.input n).length) :
    (s.input n)[i] = s.inputByte i := by simp [State.input]

@[simp] theorem State.input_zero (s : State) : s.input 0 = [] := rfl

/-- Equal bytes below the length are equal inputs (00_scope.md R12). -/
theorem State.input_congr {s u : State} {n : Nat} (h : ∀ a < n, u.inputByte a = s.inputByte a) :
    u.input n = s.input n :=
  List.map_congr_left fun a ha => h a (List.mem_range.mp ha)

@[simp] theorem headBytes_length (cmd : Byte) (n : Half) : (headBytes cmd n).length = 5 := rfl

@[simp] theorem withTrailer_length (body : List Byte) : (withTrailer body).length = body.length + 2 := by
  simp [withTrailer]

@[simp] theorem crcFold_nil (r : Half) : crcFold r [] = r := rfl

@[simp] theorem crcFold_cons (r : Half) (b : Byte) (bs : List Byte) :
    crcFold r (b :: bs) = crcFold (crcByte r b) bs := rfl

/-- The loop in two parts is the loop (40_crc.md R96 a). -/
theorem crcFold_append (r : Half) (xs ys : List Byte) : crcFold r (xs ++ ys) = crcFold (crcFold r xs) ys :=
  List.foldl_append

end Sys2Proof.Machine
end

