-- ==== Sys2Proof/Laws/Memory.lean ====
section
/-!
SUPPORT. The laws of the buffers: a read after a write, and that every write keeps the canonical form and
the range of the indices.
-/
namespace Sys2Proof.Machine

@[simp] theorem Memory.read_nil (a : Nat) : Memory.read [] a = none := rfl

/-- A read after a one-byte write sees the byte there and the old contents elsewhere. -/
theorem Memory.read_write (m : Cells) (a : Nat) (v : Byte) (k : Nat) :
    Memory.read (Memory.write m a v) k = if k = a then some v else Memory.read m k := by
  induction m with
  | nil => simp [Memory.write, Memory.read, eq_comm]
  | cons c rest ih =>
    obtain ⟨j, b⟩ := c
    simp only [Memory.write]
    by_cases hlt : a < j
    · simp [hlt, Memory.read, eq_comm]
    · by_cases heq : a = j
      · subst heq
        by_cases hk : k = a
        · simp [Memory.read, hk]
        · simp [Memory.read, hk, Ne.symm hk]
      · by_cases hj : j = k
        · subst hj
          simp [hlt, heq, Memory.read, Ne.symm heq]
        · simp [hlt, heq, Memory.read, hj, ih]

/-- A read after a write of several bytes. -/
theorem Memory.read_writeBytes (bs : List Byte) (m : Cells) (a k : Nat) :
    Memory.read (Memory.writeBytes m a bs) k =
      if h : a ≤ k ∧ k - a < bs.length then some bs[k - a] else Memory.read m k := by
  induction bs generalizing m a with
  | nil => simp [Memory.writeBytes]
  | cons b bs ih =>
    simp only [Memory.writeBytes, ih, Memory.read_write, List.length_cons]
    by_cases hk : k = a
    · subst hk
      simp
    · by_cases hlt : a < k
      · have h1 : k - a = (k - (a + 1)) + 1 := by omega
        simp only [h1, List.getElem_cons_succ, hk, if_false]
        by_cases h2 : k - (a + 1) < bs.length
        · rw [dif_pos ⟨by omega, h2⟩, dif_pos ⟨by omega, by omega⟩]
        · rw [dif_neg (fun h => h2 h.2), dif_neg (fun h => h2 (by omega))]
      · rw [dif_neg (fun h => by omega), dif_neg (fun h => by omega)]
        simp [hk]

/-- The indices listed after a write are the old ones and the one written. -/
theorem Memory.mem_write {m : Cells} {a : Nat} {v : Byte} {c : Host.Cell} (h : c ∈ Memory.write m a v) :
    c = (a, v) ∨ c ∈ m := by
  induction m with
  | nil => simpa [Memory.write] using h
  | cons d rest ih =>
    obtain ⟨j, b⟩ := d
    simp only [Memory.write] at h
    split at h
    · simpa using h
    · split at h
      · rcases List.mem_cons.mp h with h | h
        · exact .inl h
        · exact .inr (List.mem_cons_of_mem _ h)
      · rcases List.mem_cons.mp h with h | h
        · exact .inr (by simp [h])
        · exact (ih h).imp id (List.mem_cons_of_mem _)

/-- A one-byte write keeps the canonical form. -/
theorem Memory.write_wf {m : Cells} (hm : Memory.wf m) (a : Nat) (v : Byte) : Memory.wf (Memory.write m a v) := by
  induction m with
  | nil => simp [Memory.write, Memory.wf]
  | cons d rest ih =>
    obtain ⟨j, b⟩ := d
    obtain ⟨hd, hrest⟩ := List.pairwise_cons.mp hm
    simp only [Memory.write]
    split
    case isTrue hlt =>
      refine List.pairwise_cons.mpr ⟨fun c hc => ?_, hm⟩
      rcases List.mem_cons.mp hc with rfl | hc
      · exact hlt
      · exact Nat.lt_trans hlt (hd c hc)
    case isFalse hlt =>
      split
      case isTrue heq =>
        subst heq
        exact List.pairwise_cons.mpr ⟨hd, hrest⟩
      case isFalse heq =>
        refine List.pairwise_cons.mpr ⟨fun c hc => ?_, ih hrest⟩
        rcases Memory.mem_write hc with rfl | hc
        · exact Nat.lt_of_le_of_ne (Nat.le_of_not_lt hlt) (Ne.symm heq)
        · exact hd c hc

/-- A write of several bytes keeps the canonical form. -/
theorem Memory.writeBytes_wf (bs : List Byte) {m : Cells} (hm : Memory.wf m) (a : Nat) :
    Memory.wf (Memory.writeBytes m a bs) := by
  induction bs generalizing m a with
  | nil => exact hm
  | cons b bs ih => exact ih (Memory.write_wf hm a b) (a + 1)

/-- A write of several bytes below a bound keeps every index below it. -/
theorem Memory.writeBytes_below (bs : List Byte) {m : Cells} {cap : Nat} (hm : ∀ c ∈ m, c.1 < cap) (a : Nat)
    (h : a + bs.length ≤ cap) : ∀ c ∈ Memory.writeBytes m a bs, c.1 < cap := by
  induction bs generalizing m a with
  | nil => exact hm
  | cons b bs ih =>
    simp only [List.length_cons] at h
    refine ih (fun c hc => ?_) (a + 1) (by omega)
    rcases Memory.mem_write hc with rfl | hc
    · show a < cap
      omega
    · exact hm c hc

/-- The buffers after reset are in canonical form. -/
theorem State.reset_buffers_wf : Memory.wf State.reset.ib ∧ Memory.wf State.reset.ob := by
  simp [State.reset, Memory.wf]

/-- What `OB` reads as after an operation: its output, and beyond it what stood there (10_state.md R37). -/
theorem State.finish_outputByte (s : State) (x : Results) (out : List Byte) (a : Nat) :
    (s.finish x out).outputByte a = if h : a < out.length then out[a] else s.outputByte a := by
  unfold State.outputByte State.finish
  simp only [Memory.read_writeBytes, Nat.zero_le, true_and, Nat.sub_zero]
  split <;> rfl

end Sys2Proof.Machine
end

