-- ==== Sys2Proof/Laws/State.lean ====
section
/-!
SUPPORT. One lemma per field per named update of `State`, so that no later proof unfolds an update.
-/
namespace Sys2Proof.Machine

section Finish
variable (s : State) (x : Results) (out : List Byte)

@[simp] theorem State.finish_params : (s.finish x out).params = s.params := rfl
@[simp] theorem State.finish_cw : (s.finish x out).cw = s.cw := rfl
@[simp] theorem State.finish_ib : (s.finish x out).ib = s.ib := rfl
@[simp] theorem State.finish_ob : (s.finish x out).ob = Memory.writeBytes s.ob 0 out := rfl
@[simp] theorem State.finish_x : (s.finish x out).x = x := rfl
@[simp] theorem State.finish_work : (s.finish x out).work = idleWork s.unitKey s.ops := rfl
@[simp] theorem State.finish_unitKey : (s.finish x out).unitKey = s.unitKey := rfl
@[simp] theorem State.finish_resets : (s.finish x out).resets = s.resets := rfl
@[simp] theorem State.finish_ops : (s.finish x out).ops = s.ops + 1 := rfl
@[simp] theorem State.finish_host : (s.finish x out).host = s.host := rfl

end Finish

section Raise
variable (s : State) (k : Kind) (sub : Sub) (e a : Nat) (sums : Option Checksums)

@[simp] theorem State.raise_params : (s.raise k sub e a sums).params = s.params := rfl
@[simp] theorem State.raise_cw : (s.raise k sub e a sums).cw = s.cw := rfl
@[simp] theorem State.raise_ib : (s.raise k sub e a sums).ib = s.ib := rfl
@[simp] theorem State.raise_ob : (s.raise k sub e a sums).ob = s.ob := rfl
@[simp] theorem State.raise_x : (s.raise k sub e a sums).x = failureResults k sub e a sums := rfl
@[simp] theorem State.raise_work : (s.raise k sub e a sums).work = idleWork s.unitKey s.ops := rfl
@[simp] theorem State.raise_unitKey : (s.raise k sub e a sums).unitKey = s.unitKey := rfl
@[simp] theorem State.raise_resets : (s.raise k sub e a sums).resets = s.resets := rfl
@[simp] theorem State.raise_ops : (s.raise k sub e a sums).ops = s.ops + 1 := rfl
@[simp] theorem State.raise_host : (s.raise k sub e a sums).host = s.host := rfl

end Raise

section Succeed
variable (s : State) (r : Success)

@[simp] theorem State.succeed_params : (s.succeed r).params = s.params := rfl
@[simp] theorem State.succeed_cw : (s.succeed r).cw = s.cw := rfl
@[simp] theorem State.succeed_ib : (s.succeed r).ib = s.ib := rfl
@[simp] theorem State.succeed_ob : (s.succeed r).ob = Memory.writeBytes s.ob 0 r.out := rfl
@[simp] theorem State.succeed_x : (s.succeed r).x = successResults r := rfl
@[simp] theorem State.succeed_work : (s.succeed r).work = idleWork s.unitKey s.ops := rfl
@[simp] theorem State.succeed_unitKey : (s.succeed r).unitKey = s.unitKey := rfl
@[simp] theorem State.succeed_resets : (s.succeed r).resets = s.resets := rfl
@[simp] theorem State.succeed_ops : (s.succeed r).ops = s.ops + 1 := rfl
@[simp] theorem State.succeed_host : (s.succeed r).host = s.host := rfl

end Succeed

section Latch
variable (s : State) (w : Word)

@[simp] theorem State.latchCommand_params : (s.latchCommand w).params = s.params := rfl
@[simp] theorem State.latchCommand_cw : (s.latchCommand w).cw = w := rfl
@[simp] theorem State.latchCommand_ib : (s.latchCommand w).ib = s.ib := rfl
@[simp] theorem State.latchCommand_ob : (s.latchCommand w).ob = s.ob := rfl
@[simp] theorem State.latchCommand_x : (s.latchCommand w).x = s.x := rfl
@[simp] theorem State.latchCommand_work : (s.latchCommand w).work = s.work := rfl
@[simp] theorem State.latchCommand_unitKey : (s.latchCommand w).unitKey = s.unitKey := rfl
@[simp] theorem State.latchCommand_resets : (s.latchCommand w).resets = s.resets := rfl
@[simp] theorem State.latchCommand_ops : (s.latchCommand w).ops = s.ops := rfl
@[simp] theorem State.latchCommand_host : (s.latchCommand w).host = s.host := rfl

end Latch

section Reset
variable (s : State)

@[simp] theorem State.hostReset_params : s.hostReset.params = s.params := rfl
@[simp] theorem State.hostReset_cw : s.hostReset.cw = State.reset.cw := rfl
@[simp] theorem State.hostReset_ib : s.hostReset.ib = [] := rfl
@[simp] theorem State.hostReset_ob : s.hostReset.ob = [] := rfl
@[simp] theorem State.hostReset_x : s.hostReset.x = .zero := rfl
@[simp] theorem State.hostReset_work : s.hostReset.work = .zero := rfl
@[simp] theorem State.hostReset_unitKey : s.hostReset.unitKey = s.unitKey := rfl
@[simp] theorem State.hostReset_resets : s.hostReset.resets = s.resets + 1 := rfl
@[simp] theorem State.hostReset_ops : s.hostReset.ops = s.ops := rfl
@[simp] theorem State.hostReset_host : s.hostReset.host = s.host := rfl

end Reset

/-- A failure writes nothing to `OB` (60_exceptions.md R189). -/
@[simp] theorem State.raise_outputByte (s : State) (k : Kind) (sub : Sub) (e a : Nat)
    (sums : Option Checksums) (i : Nat) : (s.raise k sub e a sums).outputByte i = s.outputByte i := rfl

/-- No operation changes what `IB` reads as (10_state.md R37). -/
@[simp] theorem State.finish_inputByte (s : State) (x : Results) (out : List Byte) (i : Nat) :
    (s.finish x out).inputByte i = s.inputByte i := rfl

@[simp] theorem State.latchCommand_inputByte (s : State) (w : Word) (i : Nat) :
    (s.latchCommand w).inputByte i = s.inputByte i := rfl

end Sys2Proof.Machine
end

