-- ==== Sys2Proof/Laws/Exec.lean ====
section
/-!
SUPPORT. What each shared operation can do, said once, so that later proofs cite these lemmas and do not
unfold the operations: the frame check, the length-prefixed parse, the five meanings, and one step.
-/
namespace Sys2Proof.Machine

/-- The frame check with its constants written out (42_frame_decode.md R130). -/
theorem State.verifyFrame_eq (s : State) (n : Nat) :
    s.verifyFrame n =
      if n < 2 then .error (s.raise .frameTooShort .noCause 2 n none)
      else if s.inputHalf (n - 2) = crc16 (s.input (n - 2)) then .ok (crc16 (s.input (n - 2)))
      else .error (s.raise .checksumMismatch .noCause (crc16 (s.input (n - 2))).toNat
        (s.inputHalf (n - 2)).toNat (some ⟨crc16 (s.input (n - 2)), s.inputHalf (n - 2)⟩)) := rfl

/-- A verified frame has a trailer that is the checksum of the rest (42_frame_decode.md R130). -/
theorem State.verifyFrame_ok {s : State} {n : Nat} {sum : Half} (h : s.verifyFrame n = .ok sum) :
    2 ≤ n ∧ s.inputHalf (n - 2) = crc16 (s.input (n - 2)) ∧ sum = crc16 (s.input (n - 2)) := by
  rw [State.verifyFrame_eq] at h
  split at h
  case isTrue => cases h
  case isFalse hn =>
    split at h
    case isTrue heq => cases h; exact ⟨Nat.le_of_not_lt hn, heq, rfl⟩
    case isFalse => cases h

/-- A frame that fails its check is too short or has another trailer (42_frame_decode.md R130). -/
theorem State.verifyFrame_error {s t : State} {n : Nat} (h : s.verifyFrame n = .error t) :
    (n < 2 ∧ t = s.raise .frameTooShort .noCause 2 n none) ∨
    (2 ≤ n ∧ s.inputHalf (n - 2) ≠ crc16 (s.input (n - 2)) ∧
      t = s.raise .checksumMismatch .noCause (crc16 (s.input (n - 2))).toNat (s.inputHalf (n - 2)).toNat
        (some ⟨crc16 (s.input (n - 2)), s.inputHalf (n - 2)⟩)) := by
  rw [State.verifyFrame_eq] at h
  split at h
  case isTrue hn => cases h; exact .inl ⟨hn, rfl⟩
  case isFalse hn =>
    split at h
    case isTrue => cases h
    case isFalse hne => cases h; exact .inr ⟨Nat.le_of_not_lt hn, hne, rfl⟩

/-- A remainder that parses is a head with the right constants and its payload (42_frame_decode.md R132). -/
theorem parseRemainder_ok {cmdSet bs : List Byte} {p : Parsed} (h : parseRemainder cmdSet bs = .ok p) :
    bs = headBytes p.cmd p.len ++ p.payload ∧ p.cmd ∈ cmdSet ∧ p.len.toNat = p.payload.length := by
  unfold parseRemainder at h
  split at h
  case h_1 hd v cmd l1 l0 payload =>
    split at h
    · cases h
    · split at h
      · cases h
      · split at h
        · cases h
        · split at h
          · cases h
          · cases h
            simp_all [headBytes, be16Bytes]
  case h_2 => cases h

/-- Why a remainder does not parse: one of the five sub-causes, values below 65536 (60_exceptions.md R186). -/
theorem parseRemainder_error {cmdSet bs : List Byte} {e : ParseError} (h : parseRemainder cmdSet bs = .error e)
    (hlen : bs.length < 65536) :
    e.sub ∈ [Sub.truncated, .badHeader, .badVersion, .unknownCommand, .lengthMismatch] ∧
    e.exp < 65536 ∧ e.act < 65536 := by
  unfold parseRemainder at h
  split at h
  case h_1 hd v cmd l1 l0 payload =>
    have h8 : ∀ b : Byte, b.toNat < 65536 := fun b => Nat.lt_trans b.isLt (by decide)
    have h16 := (be16 l1 l0).isLt
    simp only [List.length_cons] at hlen
    split at h
    · cases h; simp [h8]
    · split at h
      · cases h; simp [h8]
      · split at h
        · cases h; simp [h8]
        · split at h
          · cases h; exact ⟨by simp, h16, by show payload.length < 65536; omega⟩
          · cases h
  case h_2 => cases h; simp [headLP]; omega

/-- A head with the right constants parses to its payload (42_frame_decode.md R132 step 8). -/
theorem parseRemainder_headBytes {cmdSet payload : List Byte} {cmd : Byte} {n : Half}
    (hcmd : cmd ∈ cmdSet) (hn : n.toNat = payload.length) :
    parseRemainder cmdSet (headBytes cmd n ++ payload) = .ok ⟨cmd, n, payload⟩ := by
  simp [headBytes, be16Bytes, parseRemainder, hcmd, hn]

/-- The ways a decode that answers a next state can have failed its frame check. -/
def FrameCheckFailure (s t : State) : Prop :=
  (∃ n < 2, t = s.raise .frameTooShort .noCause 2 n none) ∨
  (∃ comp recv : Half, recv ≠ comp ∧
    t = s.raise .checksumMismatch .noCause comp.toNat recv.toNat (some ⟨comp, recv⟩))

/-- Everything an operation that answers a next state can do: succeed with an output that fits `OB`, or
raise one of the five kinds with the values the kind carries (60_exceptions.md R182 table). -/
def OperationEnd (s t : State) : Prop :=
  (∃ r : Success, r.out.length ≤ obCap ∧ t = s.succeed r) ∨
  (∃ cmd : Byte, t = s.raise .validationError .unknownCommand 0 cmd.toNat none) ∨
  (∃ size ≤ 65542, t = s.raise .oversizeFrame .noCause maxFrame size none) ∨
  FrameCheckFailure s t ∨
  (∃ (sub : Sub) (e a : Nat) (sum : Half),
    sub ∈ [Sub.truncated, .badHeader, .badVersion, .unknownCommand, .lengthMismatch] ∧ e < 65536 ∧ a < 65536 ∧
    t = s.raise .deserializationError sub e a (some ⟨sum, sum⟩))

/-- A failed frame check is one of the two failures. -/
theorem State.verifyFrame_failure {s t : State} {n : Nat} (h : s.verifyFrame n = .error t) :
    FrameCheckFailure s t := by
  rcases State.verifyFrame_error h with ⟨hn, ht⟩ | ⟨_, hne, ht⟩
  · exact .inl ⟨n, hn, ht⟩
  · exact .inr ⟨_, _, hne, ht⟩

/-- The inversion of `exec`. -/
theorem exec_next {i : Instr} {s t : State} (h : exec i s = .next t) : OperationEnd s t := by
  cases i with
  | crcCompute n =>
    simp only [exec, execCrcCompute] at h
    split at h
    · cases h; exact .inl ⟨_, Nat.zero_le _, rfl⟩
    · cases h
  | frameBuildLP cmd n =>
    have hn := n.isLt
    simp only [exec, execFrameBuildLP] at h
    split at h
    · cases h; exact .inr (.inl ⟨cmd, rfl⟩)
    · split at h
      · cases h
        exact .inr (.inr (.inl ⟨_, by simp only [envelopeLP]; omega, rfl⟩))
      case isFalse hfit =>
        cases h
        refine .inl ⟨_, ?_, rfl⟩
        simp only [withTrailer_length, List.length_append, headBytes_length, State.input_length, obCap]
        simp only [maxFrame, envelopeLP] at hfit ⊢
        omega
  | frameBuildSD n =>
    have hn := n.isLt
    simp only [exec, execFrameBuildSD] at h
    split at h
    · cases h
      exact .inr (.inr (.inl ⟨_, by simp only [crcLen]; omega, rfl⟩))
    case isFalse hfit =>
      cases h
      refine .inl ⟨_, ?_, rfl⟩
      simp only [withTrailer_length, State.input_length, obCap]
      simp only [maxFrame, crcLen] at hfit ⊢
      omega
  | frameDecodeLP n =>
    simp only [exec, execFrameDecodeLP] at h
    split at h
    case isTrue hn =>
      simp only [maxFrame] at hn
      split at h
      case h_1 t' hv => cases h; exact .inr (.inr (.inr (.inl (State.verifyFrame_failure hv))))
      case h_2 sum hv =>
        split at h
        case h_1 e he =>
          cases h
          obtain ⟨hsub, hexp, hact⟩ :=
            parseRemainder_error he (by simp only [State.input_length, crcLen]; omega)
          exact .inr (.inr (.inr (.inr ⟨_, _, _, _, hsub, hexp, hact, rfl⟩)))
        case h_2 p hp =>
          cases h
          refine .inl ⟨_, ?_, rfl⟩
          have := congrArg List.length (parseRemainder_ok hp).1
          simp only [List.length_append, headBytes_length, State.input_length, crcLen] at this
          simp only [obCap, maxFrame]
          omega
    case isFalse => cases h
  | frameDecodeSD n =>
    simp only [exec, execFrameDecodeSD] at h
    split at h
    case isTrue hn =>
      split at h
      case h_1 t' hv => cases h; exact .inr (.inr (.inr (.inl (State.verifyFrame_failure hv))))
      case h_2 sum hv =>
        cases h
        refine .inl ⟨_, ?_, rfl⟩
        simp only [State.input_length, obCap, crcLen]
        simp only [maxFrame] at hn ⊢
        omega
    case isFalse => cases h

/-- Every operation that answers a next state ends in `State.finish`, with an output that fits `OB`. -/
theorem exec_finish {i : Instr} {s t : State} (h : exec i s = .next t) :
    ∃ x out, t = s.finish x out ∧ x.olen = BitVec.ofNat 32 out.length ∧ out.length ≤ obCap := by
  rcases exec_next h with ⟨r, hr, rfl⟩ | ⟨_, rfl⟩ | ⟨_, _, rfl⟩ | (⟨_, _, rfl⟩ | ⟨_, _, _, rfl⟩) | ⟨_, _, _, _, _, _, _, rfl⟩
  · exact ⟨_, _, rfl, rfl, hr⟩
  all_goals exact ⟨_, [], rfl, rfl, Nat.zero_le _⟩

/-- What a host write that answers a next state does (20_memory.md R50). -/
theorem State.hostWrite_next {s t : State} {a : Nat} {bytes : List Byte} (h : s.hostWrite a bytes = .next t) :
    (bytes = [] ∨ a + bytes.length ≤ ibCap s.params) ∧
      t = { s with ib := Memory.writeBytes s.ib a bytes } := by
  simp only [State.hostWrite] at h
  split at h
  case isTrue hc => cases h; exact ⟨hc, rfl⟩
  case isFalse => cases h

/-- What a host copy of the output that answers a next state does (30_encoding.md R86). -/
theorem State.hostCopyOutput_next {s t : State} (h : s.hostCopyOutput = .next t) :
    s.x.olen.toNat ≤ obCap ∧
      t = { s with ib := Memory.writeBytes s.ib 0 (s.outputBytes s.x.olen.toNat) } := by
  simp only [State.hostCopyOutput] at h
  split at h
  case isTrue hc => exact ⟨hc, (State.hostWrite_next h).2⟩
  case isFalse => cases h

/-- Everything a step that answers a next state can do: the inversion of `step`. -/
theorem step_next {s t : State} (h : step s = .next t) :
    (s.host = [] ∧ t = s) ∨
    (∃ a bytes rest, s.host = .writeInput a bytes :: rest ∧ State.hostWrite { s with host := rest } a bytes = .next t) ∨
    (∃ rest, s.host = .copyOutput :: rest ∧ State.hostCopyOutput { s with host := rest } = .next t) ∨
    (∃ w rest i, s.host = .issue w :: rest ∧ decode w = .ok i ∧
      exec i (State.latchCommand { s with host := rest } w) = .next t) ∨
    (∃ rest, s.host = .reset :: rest ∧ t = State.hostReset { s with host := rest }) := by
  unfold step at h
  split at h
  case h_1 hs => cases h; exact .inl ⟨hs, rfl⟩
  case h_2 a bytes rest hs => exact .inr (.inl ⟨a, bytes, rest, hs, h⟩)
  case h_3 rest hs => exact .inr (.inr (.inl ⟨rest, hs, h⟩))
  case h_4 w rest hs =>
    simp only [State.runCommand, State.latchCommand_cw] at h
    split at h
    case h_1 i hi => exact .inr (.inr (.inr (.inl ⟨w, rest, i, hs, hi, h⟩)))
    case h_2 => cases h
  case h_5 rest hs => cases h; exact .inr (.inr (.inr (.inr ⟨rest, hs, rfl⟩)))

end Sys2Proof.Machine
end

