-- ==== Sys2Proof/Laws/Payload.lean ====
section
/-!
SUPPORT. The collaborator's closed types and checks, said once: a code read into a closed type keeps its
code, what each port rule lets through, and when a builder passes its checks.
-/
namespace Sys2Proof.Machine

/-- Every violation is a ValidationError (45_payload_collaborators.md R152). -/
@[simp] theorem Payload.Violation.status_kind (v : Payload.Violation) : statusKind v.status = 1 := by
  cases v <;> decide

@[simp] theorem Payload.Port.code_ofCode (c : Payload.Codes) (b : Byte) : (Payload.Port.ofCode c b).code c = b := by
  unfold Payload.Port.ofCode
  split
  · rfl
  · split
    case isTrue h => exact h.symm
    case isFalse => rfl

@[simp] theorem Payload.PortRule.unchecked_accepts (p : Payload.Port) :
    Payload.PortRule.unchecked.accepts p = true := by
  cases p <;> rfl

@[simp] theorem Payload.PortRule.valid_accepts (c : Payload.Codes) (b : Byte) :
    Payload.PortRule.valid.accepts (.ofCode c b) = true ↔ b ∈ c.portSet := by
  unfold Payload.Port.ofCode
  split <;> (try split) <;> simp_all [Payload.PortRule.accepts]

@[simp] theorem Payload.PortRule.effective_accepts (c : Payload.Codes) (b : Byte) :
    Payload.PortRule.effective.accepts (.ofCode c b) = true ↔ b ∈ c.portSet ∧ b ≠ c.portNoEffect := by
  unfold Payload.Port.ofCode
  split <;> (try split) <;> simp_all [Payload.PortRule.accepts]

@[simp] theorem Payload.memberRule_accepts (c : Payload.Codes) (b : Byte) (rejects : Bool) :
    (Payload.memberRule rejects).accepts (.ofCode c b) = true ↔
      b ∈ c.portSet ∧ (rejects = true → b ≠ c.portNoEffect) := by
  cases rejects <;> simp [Payload.memberRule]

/-- A selector byte read into a mode keeps its code (45_payload_collaborators.md R157). -/
theorem Payload.Mode.code_of_ofCode {c : Payload.Codes} {b : Byte} {m : Payload.Mode}
    (h : Payload.Mode.ofCode c b = some m) : m.code c = b := by
  unfold Payload.Mode.ofCode at h
  split at h
  case isTrue hb => cases h; exact hb.symm
  case isFalse =>
    split at h
    case isTrue hb => cases h; exact hb.symm
    case isFalse => cases h

/-- A selector byte is a mode exactly when it is one of the two codes (45_payload_collaborators.md R157). -/
theorem Payload.Mode.ofCode_none (c : Payload.Codes) (b : Byte) :
    Payload.Mode.ofCode c b = none ↔ ¬ (b = c.primaryController ∨ b = c.passiveListener) := by
  unfold Payload.Mode.ofCode
  split <;> (try split) <;> simp_all

/-- A selector byte read into an antenna keeps its code (45_payload_collaborators.md R158). -/
theorem Payload.Antenna.code_of_ofCode {c : Payload.Codes} {b : Byte} {a : Payload.Antenna}
    (h : Payload.Antenna.ofCode c b = some a) : a.code c = b := by
  unfold Payload.Antenna.ofCode at h
  split at h
  case isTrue hb => cases h; exact hb.symm
  case isFalse =>
    split at h
    case isTrue hb => cases h; exact hb.symm
    case isFalse => cases h

/-- A selector byte is an antenna exactly when it is one of the two codes (45_payload_collaborators.md R158). -/
theorem Payload.Antenna.ofCode_none (c : Payload.Codes) (b : Byte) :
    Payload.Antenna.ofCode c b = none ↔ ¬ (b = c.internalAntenna ∨ b = c.externalAntenna) := by
  unfold Payload.Antenna.ofCode
  split <;> (try split) <;> simp_all

/-- A builder that passes its checks lays out the values it was offered, under the limits of its command
(45_payload_collaborators.md R154 to R161). -/
theorem Payload.check_ok {c : Payload.Codes} {ports : Payload.PortRules} {r : Payload.Request}
    {cmd : Payload.Command} (h : Payload.check c ports r = .ok cmd) :
    match r with
    | .reset => Payload.layout c cmd = []
    | .diagnostics => Payload.layout c cmd = []
    | .setMode b => Payload.layout c cmd = [b]
    | .setAntenna b => Payload.layout c cmd = [b]
    | .setBaudrate b code => Payload.layout c cmd = [b, code] ∧ code ∈ c.baudTable
    | .modbusOneShot b e => Payload.layout c cmd = b :: e ∧ e.length ≤ 256
    | .modbusPeriodic b index interval e =>
      Payload.layout c cmd =
        [b, BitVec.ofNat 8 index] ++ intervalBytes (BitVec.ofInt 24 interval) ++ e ∧
      1 ≤ index ∧ index ≤ 64 ∧ 0 ≤ interval ∧ interval ≤ maxInterval ∧ e.length ≤ 256 := by
  cases r <;> simp only [Payload.check] at h
  case reset => cases h; rfl
  case diagnostics => cases h; rfl
  case setMode =>
    split at h
    case h_1 hm => cases h; simp only [Payload.layout, Payload.Mode.code_of_ofCode hm]
    case h_2 => cases h
  case setAntenna =>
    split at h
    case h_1 ha => cases h; simp only [Payload.layout, Payload.Antenna.code_of_ofCode ha]
    case h_2 => cases h
  case setBaudrate =>
    (repeat' split at h) <;> cases h
    simp_all [Payload.layout]
  case modbusOneShot =>
    (repeat' split at h) <;> cases h
    simp_all [Payload.layout]
  case modbusPeriodic =>
    (repeat' split at h) <;> cases h
    simp only [maxEmbedded] at *
    simp only [Payload.layout, Payload.Port.code_ofCode, true_and]
    omega

/-- No payload of a builder is longer than 261 bytes, nor one of the one-shot longer than 257
(45_payload_collaborators.md R162). -/
theorem Payload.layout_length {c : Payload.Codes} {ports : Payload.PortRules} {r : Payload.Request}
    {cmd : Payload.Command} (h : Payload.check c ports r = .ok cmd) :
    (Payload.layout c cmd).length ≤ 261 ∧
    (∀ port e, r = .modbusOneShot port e → (Payload.layout c cmd).length ≤ 257) := by
  have hc := Payload.check_ok h
  cases r <;> simp only at hc
  case modbusOneShot => rw [hc.1]; simp; omega
  case modbusPeriodic => rw [hc.1]; simp [intervalBytes]; omega
  case setBaudrate => rw [hc.1]; simp
  all_goals rw [hc]; simp

/-- What a length-prefixed builder answers, from its checks (45_payload_collaborators.md R152). -/
theorem Payload.build_ok {c : Payload.Codes} {r : Payload.Request} {p : List Byte}
    (h : Payload.build c r = .ok p) : ∃ cmd, Payload.check c c.lpPorts r = .ok cmd ∧ p = Payload.layout c cmd := by
  unfold Payload.build at h
  split at h
  case h_1 => cases h
  case h_2 cmd hc => cases h; exact ⟨cmd, hc, rfl⟩

end Sys2Proof.Machine
end

