-- ==== Sys2Proof/Laws/PerInstr.lean ====
section
/-!
SUPPORT. The family of statements made per instruction: the command word of an operation is described by
the row of the opcode table with its mnemonic (30_encoding.md R75).
-/
namespace Sys2Proof.Laws.MatchesTable

/-- The command word of `i` has the fixed bits of the one row of the table that has its mnemonic. -/
def Statement (i : Instr) : Prop :=
  ∃ row ∈ opcodeTable, row.mnemonic = i.mnemonic ∧ encode i &&& row.mask = row.bits

/-- Two command words masked with a third, bit by bit: the fields are masked each on its own. -/
theorem commandWord_and (o₁ a₁ o₂ a₂ : Byte) (l₁ l₂ : Half) :
    commandWord o₁ a₁ l₁ &&& commandWord o₂ a₂ l₂ = commandWord (o₁ &&& o₂) (a₁ &&& a₂) (l₁ &&& l₂) := by
  apply BitVec.eq_of_getLsbD_eq
  intro i _
  simp only [commandWord, BitVec.getLsbD_and, BitVec.getLsbD_append]
  split
  · rfl
  · split <;> rfl

/-- Masking off `LEN` leaves the fixed half of a command word. -/
theorem mask_len (opc arg : Byte) (len : Half) :
    commandWord opc arg len &&& 0xFFFF0000 = commandWord opc arg 0 := by
  have h : (0xFFFF0000 : Word) = commandWord (BitVec.allOnes 8) (BitVec.allOnes 8) 0 := by decide
  rw [h, commandWord_and]
  simp only [BitVec.and_allOnes]
  simp

/-- Masking off `ARG` and `LEN` leaves the operation code of a command word. -/
theorem mask_arg_len (opc arg : Byte) (len : Half) :
    commandWord opc arg len &&& 0xFF000000 = commandWord opc 0 0 := by
  have h : (0xFF000000 : Word) = commandWord (BitVec.allOnes 8) 0 0 := by decide
  rw [h, commandWord_and]
  simp only [BitVec.and_allOnes]
  simp

theorem crcCompute (n : Half) : Statement (.crcCompute n) :=
  ⟨_, List.Mem.head _, rfl, (mask_len _ _ _).trans (show commandWord 0x01 0 0 = 0x01000000 by decide)⟩

theorem frameBuildLP (cmd : Byte) (n : Half) : Statement (.frameBuildLP cmd n) :=
  ⟨_, .tail _ (.head _), rfl, (mask_arg_len _ _ _).trans (show commandWord 0x10 0 0 = 0x10000000 by decide)⟩

theorem frameBuildSD (n : Half) : Statement (.frameBuildSD n) :=
  ⟨_, .tail _ (.tail _ (.head _)), rfl, (mask_len _ _ _).trans (show commandWord 0x11 0 0 = 0x11000000 by decide)⟩

theorem frameDecodeLP (n : Half) : Statement (.frameDecodeLP n) :=
  ⟨_, .tail _ (.tail _ (.tail _ (.head _))), rfl, (mask_len _ _ _).trans (show commandWord 0x20 0 0 = 0x20000000 by decide)⟩

theorem frameDecodeSD (n : Half) : Statement (.frameDecodeSD n) :=
  ⟨_, .tail _ (.tail _ (.tail _ (.tail _ (.head _)))), rfl, (mask_len _ _ _).trans (show commandWord 0x21 0 0 = 0x21000000 by decide)⟩

end Sys2Proof.Laws.MatchesTable
end

