-- ==== Sys2Proof/Tests/Slice0.lean ====
section
/-!
SUPPORT. Tests, each expected value taken from the spec: words written out bit by bit from
30_encoding.md R70 and R75, and vectors of 95_test_vectors.md by section and row. And one witness per
statement of Certificates/Slice0/Obligations.lean that has hypotheses: a state and operands that meet
all of them together, one for each clause.
-/
namespace Sys2Proof.Tests

open Sys2Proof.Machine

/-! ## Small states -/

/-- The state after reset with bytes in `IB` from index 0 on. -/
def withInput (bytes : List Byte) : State := { State.reset with ib := Memory.writeBytes [] 0 bytes }

/-- The state after reset with the host's next action. -/
def withHost (a : HostAction) : State := { State.reset with host := [a] }

/-- The result registers of a next state. -/
def results : Host.Outcome State Fault Refusal → Option Results
  | .next t => some t.x
  | _ => none

/-- The first bytes of `OB` that the block has written, in a next state. -/
def output (n : Nat) : Host.Outcome State Fault Refusal → Option (List (Option Byte))
  | .next t => some ((List.range n).map (Memory.read t.ob))
  | _ => none

/-- The state after an operation; the state before it where it does not complete. -/
def after (i : Instr) (s : State) : State :=
  match exec i s with
  | .next t => t
  | _ => s

/-- The operation answers a next state. -/
def completes (i : Instr) (s : State) : Bool :=
  match exec i s with
  | .next _ => true
  | _ => false

theorem exec_after {i : Instr} {s : State} (h : completes i s = true) : exec i s = .next (after i s) := by
  revert h
  unfold completes after
  cases exec i s <;> simp

/-! ## Well-formedness: an ill-formed term for each check -/

theorem test_crcCompute_beyond_input_buffer_is_illFormed :
    (Instr.crcCompute 1025).wellFormed defaultParams = false := by decide

theorem test_frameDecodeLP_beyond_largest_frame_is_illFormed :
    (Instr.frameDecodeLP 1025).wellFormed ⟨1024, []⟩ = false := by decide

theorem test_frameDecodeSD_beyond_largest_frame_is_illFormed :
    (Instr.frameDecodeSD 1025).wellFormed ⟨1024, []⟩ = false := by decide

/-- A larger input buffer takes the longer checksum; the builds take every operand. -/
theorem test_wellFormed_at_the_limits :
    (Instr.crcCompute 2048).wellFormed ⟨1024, []⟩ = true ∧ (Instr.crcCompute 2049).wellFormed ⟨1024, []⟩ = false ∧
    (Instr.frameDecodeLP 1024).wellFormed defaultParams = true ∧
    (Instr.frameBuildLP 9 65535).wellFormed defaultParams = true ∧
    (Instr.frameBuildSD 65535).wellFormed defaultParams = true := by decide

/-! ## Decoding: words written out from R70 and R75, `oooooooo aaaaaaaa llllllll llllllll` -/

theorem test_decode_crcCompute :
    decode 0b00000001_00000000_00000001_00000000#32 = .ok (.crcCompute 256) ∧
    encode (.crcCompute 256) = 0x01000100 := by decide

theorem test_decode_frameBuildLP :
    decode 0b00010000_10000001_10000000_00000001#32 = .ok (.frameBuildLP 0x81 0x8001) ∧
    encode (.frameBuildLP 7 1017) = 0x100703F9 := by decide

theorem test_decode_frameBuildSD :
    decode 0b00010001_00000000_11111111_11111110#32 = .ok (.frameBuildSD 0xFFFE) ∧
    encode (.frameBuildSD 1022) = 0x110003FE := by decide

theorem test_decode_frameDecodeLP :
    decode 0b00100000_00000000_00000000_00010000#32 = .ok (.frameDecodeLP 16) ∧
    encode (.frameDecodeLP 7) = 0x20000007 := by decide

theorem test_decode_frameDecodeSD :
    decode 0b00100001_00000000_00000000_00000110#32 = .ok (.frameDecodeSD 6) ∧
    encode (.frameDecodeSD 6) = 0x21000006 := by decide

/-- Section 8: the reserved words, and the unreserved neighbours. -/
theorem test_decode_reserved_words :
    ([0x00000000, 0x02000000, 0x0F000000, 0x12000000, 0x1F000000, 0x22000000, 0x80000000, 0xFFFFFFFF,
      0x01010000, 0x11FF0000, 0x20010007, 0x21800002] : List Word).all
        (fun w => (decode w).toOption.isNone && opcodeTable.all (fun row => !row.describes w)) = true ∧
    decode 0x10FFFFFF = .ok (.frameBuildLP 0xFF 0xFFFF) := by decide

/-- R86: the written form, and the example word. -/
theorem test_written_form :
    (Instr.frameBuildLP 1 0).written = "FRAME.BUILD.LP 1, 0" ∧ encode (.frameBuildLP 1 0) = 0x10010000 := by
  decide

/-- The host's probe: the word of a row is the first instruction after reset. -/
theorem test_withFetchWord_runs_the_word :
    decodeTableWord 32 0x01000000 = some (.crcCompute 0) ∧
    results (step (State.reset.withFetchWord 32 0x01000000)) = some ⟨0, 0, 0x800D, 0, 0, 0, 0, 0⟩ := by
  decide +kernel

/-! ## The checksum -/

/-- Section 2.1, the short rows. -/
theorem test_crc16_known_answers :
    crc16 [] = 0x800D ∧ crc16 [0x00] = 0x8E03 ∧ crc16 [0x80] = 0x0D00 ∧ crc16 [0x47] = 0x8F91 ∧
    crc16 [0xFF, 0xFF] = 0x8029 ∧ crc16 [0x80, 0x0D] = 0x0000 ∧ crc16 [0x12, 0x34] = 0xEC9F ∧
    crc16 [0x31, 0x32, 0x33, 0x34, 0x35, 0x36, 0x37, 0x38, 0x39] = 0x9ECF := by decide +kernel

/-- Section 2.2: the bit steps of the byte 47. -/
theorem test_crcBit_trace :
    crcBit 0x800D false = 0x801F ∧ crcBit 0x801F true = 0x003E ∧ crcBit 0x003E false = 0x007C ∧
    crcBit 0x01F0 true = 0x83E5 ∧ crcBit 0x83E5 true = 0x07CA ∧ crcBit 0x07CA true = 0x8F91 := by decide

/-- Sections 2.2 and 2.5: the three forms of the byte step. -/
theorem test_crcByte_forms :
    crcByte 0x800D 0x47 = 0x8F91 ∧ crcByteShift 0x800D 0x47 = 0x8F91 ∧ crcByteTable 0x800D 0x47 = 0x8F91 ∧
    crcTable 0xC7 = 0x8291 := by decide

/-! ## The operations, two each -/

/-- Section 3, rows 3 and 6. -/
theorem test_crcCompute_values :
    results (exec (.crcCompute 9) (withInput [0x31, 0x32, 0x33, 0x34, 0x35, 0x36, 0x37, 0x38, 0x39])) =
      some ⟨0, 0, 0x9ECF, 0, 0, 0, 0, 0⟩ ∧
    results (exec (.crcCompute 7) (withInput [0x47, 0x01, 0x01, 0x00, 0x00, 0xD3, 0x7C])) =
      some ⟨0, 0, 0x0000, 0, 0, 0, 0, 0⟩ := by decide +kernel

/-- Section 3, row 7. -/
theorem test_crcCompute_beyond_input_buffer :
    exec (.crcCompute 1025) State.reset = .refused (.lengthBeyondInputBuffer 1025) := rfl

/-- Section 4, row 6, with the byte of `OB` beyond the frame. -/
theorem test_frameBuildLP_frame :
    let o := exec (.frameBuildLP 7 9) (withInput [0x01, 0x01, 0x03, 0x00, 0x00, 0x00, 0x02, 0xC4, 0x0B])
    results o = some ⟨0, 16, 0xE941, 0, 0, 0, 0, 0⟩ ∧
    output 17 o = some [some 0x47, some 0x01, some 0x07, some 0x00, some 0x09, some 0x01, some 0x01, some 0x03,
      some 0x00, some 0x00, some 0x00, some 0x02, some 0xC4, some 0x0B, some 0xE9, some 0x41, none] := by
  decide +kernel

/-- Section 4, rows 10, 11 and 14. -/
theorem test_frameBuildLP_failures :
    results (exec (.frameBuildLP 7 1018) State.reset) = some ⟨0x05, 0, 0, 0, 0, 0, 0x400, 0x401⟩ ∧
    results (exec (.frameBuildLP 7 65535) State.reset) = some ⟨0x05, 0, 0, 0, 0, 0, 0x400, 0x10006⟩ ∧
    results (exec (.frameBuildLP 9 2000) State.reset) = some ⟨0x41, 0, 0, 0, 0, 0, 0, 9⟩ := by decide

/-- Section 5, row 2. -/
theorem test_frameBuildSD_frame :
    let o := exec (.frameBuildSD 4) (withInput [0x08, 0x01, 0x10, 0x47])
    results o = some ⟨0, 6, 0x415D, 0, 0, 0, 0, 0⟩ ∧
    output 7 o = some [some 0x08, some 0x01, some 0x10, some 0x47, some 0x41, some 0x5D, none] := by
  decide +kernel

/-- Section 5, rows 1, 6 and 7. -/
theorem test_frameBuildSD_limits :
    results (exec (.frameBuildSD 0) State.reset) = some ⟨0, 2, 0x800D, 0, 0, 0, 0, 0⟩ ∧
    results (exec (.frameBuildSD 1023) State.reset) = some ⟨0x05, 0, 0, 0, 0, 0, 0x400, 0x401⟩ ∧
    results (exec (.frameBuildSD 65535) State.reset) = some ⟨0x05, 0, 0, 0, 0, 0, 0x400, 0x10001⟩ := by
  decide +kernel

/-- Section 6.1, row 21: the payload. -/
theorem test_frameDecodeLP_payload :
    output 3 (exec (.frameDecodeLP 9) (withInput [0x47, 0x01, 0x03, 0x00, 0x02, 0xDE, 0xAD, 0xAC, 0x3D])) =
      some [some 0xDE, some 0xAD, none] := by decide +kernel

/-- Section 6.1, rows 2, 4, 6, 7, 8, 10, 12, 14, 16, 17 and 20: each outcome, and which check comes first. -/
theorem test_frameDecodeLP_outcomes :
    results (exec (.frameDecodeLP 1) (withInput [0x47])) = some ⟨0x02, 0, 0, 0, 0, 0, 2, 1⟩ ∧
    results (exec (.frameDecodeLP 2) (withInput [0x80, 0x0C])) =
      some ⟨0x03, 0, 0x800D, 0x800C, 0, 0, 0x800D, 0x800C⟩ ∧
    results (exec (.frameDecodeLP 6) (withInput [0x47, 0x01, 0x01, 0x00, 0x6A, 0xD2])) =
      some ⟨0x14, 0, 0x6AD2, 0x6AD2, 0, 0, 5, 4⟩ ∧
    results (exec (.frameDecodeLP 7) (withInput [0x48, 0x01, 0x01, 0x00, 0x00, 0xD1, 0xD4])) =
      some ⟨0x24, 0, 0xD1D4, 0xD1D4, 0, 0, 0x47, 0x48⟩ ∧
    results (exec (.frameDecodeLP 7) (withInput [0x47, 0x02, 0x01, 0x00, 0x00, 0xEF, 0x7C])) =
      some ⟨0x34, 0, 0xEF7C, 0xEF7C, 0, 0, 1, 2⟩ ∧
    results (exec (.frameDecodeLP 7) (withInput [0x47, 0x01, 0x00, 0x00, 0x00, 0x53, 0x6B])) =
      some ⟨0x44, 0, 0x536B, 0x536B, 0, 0, 0, 0⟩ ∧
    results (exec (.frameDecodeLP 8) (withInput [0x47, 0x01, 0x01, 0x00, 0x00, 0xAA, 0xFD, 0x15])) =
      some ⟨0x54, 0, 0xFD15, 0xFD15, 0, 0, 0, 1⟩ ∧
    results (exec (.frameDecodeLP 7) (withInput [0x48, 0x02, 0x09, 0x00, 0x07, 0xED, 0x66])) =
      some ⟨0x24, 0, 0xED66, 0xED66, 0, 0, 0x47, 0x48⟩ ∧
    results (exec (.frameDecodeLP 7) (withInput [0x47, 0x01, 0x01, 0x00, 0x00, 0x7C, 0xD3])) =
      some ⟨0x03, 0, 0xD37C, 0x7CD3, 0, 0, 0xD37C, 0x7CD3⟩ ∧
    results (exec (.frameDecodeLP 7) (withInput [0x46, 0x01, 0x01, 0x00, 0x00, 0xD3, 0x7C])) =
      some ⟨0x03, 0, 0x5307, 0xD37C, 0, 0, 0x5307, 0xD37C⟩ ∧
    results (exec (.frameDecodeLP 8) (withInput [0x47, 0x01, 0x04, 0x00, 0x01, 0x01, 0xBC, 0xEF])) =
      some ⟨0x00, 1, 0xBCEF, 0xBCEF, 0x04, 1, 0, 0⟩ := by decide +kernel

/-- Section 7, row 9: a length-prefixed frame taken as a message. -/
theorem test_frameDecodeSD_message :
    output 7 (exec (.frameDecodeSD 8) (withInput [0x47, 0x01, 0x04, 0x00, 0x01, 0x01, 0xBC, 0xEF])) =
      some [some 0x47, some 0x01, some 0x04, some 0x00, some 0x01, some 0x01, none] := by decide +kernel

/-- Section 7, rows 1, 3, 6, 7 and 11. -/
theorem test_frameDecodeSD_outcomes :
    results (exec (.frameDecodeSD 0) State.reset) = some ⟨0x02, 0, 0, 0, 0, 0, 2, 0⟩ ∧
    results (exec (.frameDecodeSD 2) (withInput [0x80, 0x0D])) = some ⟨0, 0, 0x800D, 0x800D, 0, 0, 0, 0⟩ ∧
    results (exec (.frameDecodeSD 6) (withInput [0x08, 0x01, 0x10, 0x47, 0x41, 0x5D])) =
      some ⟨0, 4, 0x415D, 0x415D, 0, 0, 0, 0⟩ ∧
    results (exec (.frameDecodeSD 6) (withInput [0x08, 0x01, 0x10, 0x46, 0x41, 0x5D])) =
      some ⟨0x03, 0, 0xC158, 0x415D, 0, 0, 0xC158, 0x415D⟩ ∧
    results (exec (.frameDecodeSD 1025) State.reset) = none := by decide +kernel

/-- Section 6.2: the same frame under a larger `CMD_SET` and under the default. -/
theorem test_frameDecodeLP_other_command_set :
    let s := withInput [0x47, 0x01, 0x81, 0x00, 0x01, 0x00, 0xF8, 0xD5]
    results (exec (.frameDecodeLP 8) { s with params := ⟨0, [0x81]⟩ }) =
      some ⟨0, 1, 0xF8D5, 0xF8D5, 0x81, 1, 0, 0⟩ ∧
    results (exec (.frameDecodeLP 8) s) = some ⟨0x44, 0, 0xF8D5, 0xF8D5, 0, 0, 0, 0x81⟩ := by decide +kernel

/-! ## The payload builders: section 9, with its stand-in codes -/

/-- Port 01 of two, port 00 without effect, baudrate code 03. -/
def codes : Payload.Codes := ⟨0, 1, 1, 2, [0, 1], 0, [3], false, true, false, true, .unchecked⟩

theorem test_payload_one_step_commands :
    Payload.build codes .diagnostics = .ok [] ∧ Payload.build codes (.setMode 1) = .ok [1] ∧
    Payload.build codes (.setMode 2) = .error .modeSelector ∧
    Payload.build codes (.setAntenna 1) = .ok [1] ∧ Payload.build codes (.setAntenna 0) = .error .antennaSelector ∧
    Payload.build codes (.setBaudrate 1 3) = .ok [1, 3] ∧
    Payload.build codes (.setBaudrate 2 3) = .error .port ∧
    Payload.build codes (.setBaudrate 1 4) = .error .baudrateCode := by decide

/-- The structured-message builders have port rules of their own (R165, log entry 14): here the one-shot
takes the "no effect" port, the periodic any port and the baudrate not the "no effect" one. The
length-prefixed one-shot never takes it (R160). -/
theorem test_payload_port_rules :
    Payload.check codes codes.sdPorts (.modbusOneShot 0 []) = .ok (.modbusOneShot .noEffect []) ∧
    Payload.check codes codes.lpPorts (.modbusOneShot 0 []) = .error .port ∧
    Payload.check codes codes.sdPorts (.modbusPeriodic 9 1 0 []) = .ok (.modbusPeriodic (.unlisted 9) 1 0 []) ∧
    Payload.check codes codes.sdPorts (.setBaudrate 0 3) = .error .port ∧
    Payload.check codes codes.lpPorts (.setBaudrate 0 3) = .ok (.setBaudrate .noEffect 3) := by decide

/-- A message longer than `IB`: the build is issued with its whole length (R116, log entry 15). -/
theorem test_payload_actionsSD_beyond_input_buffer :
    Payload.actionsSD defaultParams (fun _ => List.replicate 1025 0) codes .reset =
      .ok [.writeInput 0 (List.replicate 1024 0), .issue 0x11000401] := by decide +kernel

/-- The largest index and interval: `01 40 27 8D 00`. -/
theorem test_payload_periodic_fields :
    Payload.build codes (.modbusPeriodic 1 64 2592000 [0xAA]) = .ok [0x01, 0x40, 0x27, 0x8D, 0x00, 0xAA] ∧
    Payload.build codes (.modbusPeriodic 1 1 60 []) = .ok [0x01, 0x01, 0x00, 0x00, 0x3C] := by decide

/-- What a builder has the host do: section 9, set mode 01. -/
theorem test_payload_actions :
    Payload.actions codes (.setMode 1) = .ok [.writeInput 0 [1], .issue 0x10040001] ∧
    Payload.actions codes (.setMode 2) = .error .modeSelector := by decide

/-! ## Witnesses -/

/-- The payload frame of section 6.1 row 20 in `IB`. -/
def modeFrame : State := withInput [0x47, 0x01, 0x04, 0x00, 0x01, 0x01, 0xBC, 0xEF]

/-- The message frame of section 7 row 6 in `IB`. -/
def messageFrame : State := withInput [0x08, 0x01, 0x10, 0x47, 0x41, 0x5D]

theorem witness_OddBitFlipsChangeTheChecksum :
    (([0x46] : List Byte).length = ([0x47] : List Byte).length ∧ bitDistance [0x47] [0x46] = 1) ∧
    (([0x47, 0x00] : List Byte).length = ([0x47, 0x01] : List Byte).length ∧
      bitDistance (withTrailer [0x47, 0x01]) ([0x47, 0x00] ++ be16Bytes 0x9227) % 2 = 1) ∧
    bitDistance (withTrailer [0x47, 0x01]) ([0x47, 0x01] ++ be16Bytes 0x1224) % 2 = 1 := by decide +kernel

/-- The codes on both sides of the defined ones. -/
theorem witness_ReservedOpcodesRefused :
    (withHost (.issue 0x00000000)).host = [.issue 0x00000000] ∧
    cwOpc 0x00000000 ∉ ([0x01, 0x10, 0x11, 0x20, 0x21] : List Byte) ∧
    cwOpc 0x02000000 ∉ ([0x01, 0x10, 0x11, 0x20, 0x21] : List Byte) ∧
    cwOpc 0x12000000 ∉ ([0x01, 0x10, 0x11, 0x20, 0x21] : List Byte) ∧
    cwOpc 0x22000000 ∉ ([0x01, 0x10, 0x11, 0x20, 0x21] : List Byte) ∧
    cwOpc 0xFFFFFFFF ∉ ([0x01, 0x10, 0x11, 0x20, 0x21] : List Byte) := by decide

/-- A smallest and a largest nonzero `ARG`; `ARG` 0; both ends of `ARG` under FRAME.BUILD.LP. -/
theorem witness_ReservedArgumentsRefused :
    ((withHost (.issue 0x01010009)).host = [.issue 0x01010009] ∧
      cwOpc 0x01010009 ∈ ([0x01, 0x11, 0x20, 0x21] : List Byte) ∧ cwArg 0x01010009 ≠ 0) ∧
    (cwOpc 0x21FF0002 ∈ ([0x01, 0x11, 0x20, 0x21] : List Byte) ∧ cwArg 0x21FF0002 ≠ 0) ∧
    (cwOpc 0x1100FFFF ∈ ([0x01, 0x11, 0x20, 0x21] : List Byte) ∧ cwArg 0x1100FFFF = 0) ∧
    cwOpc 0x10FFFFFF = 0x10 ∧ cwOpc 0x10000000 = 0x10 := by decide

theorem witness_StepRunsDecodedOperation :
    (withHost (.issue 0x01000009)).host = [.issue 0x01000009] ∧ decode 0x01000009 = .ok (.crcCompute 9) := by
  decide

/-- The last byte of the input buffer, all of it, and no byte at all. -/
theorem witness_HostWriteLoadsInput :
    (withHost (.writeInput 1023 [0xAA])).host = [.writeInput 1023 [0xAA]] ∧
    1023 + ([0xAA] : List Byte).length ≤ ibCap (withHost (.writeInput 1023 [0xAA])).params ∧
    0 + (List.replicate 1024 (0 : Byte)).length ≤ ibCap defaultParams ∧
    1024 + ([] : List Byte).length ≤ ibCap defaultParams :=
  ⟨rfl, by decide, by rw [List.length_replicate]; decide, by decide⟩

/-- No output at all, and the longest. -/
theorem witness_HostCopyMovesOutput :
    ((withHost .copyOutput).host = [.copyOutput] ∧ (withHost .copyOutput).x.olen.toNat ≤ 1024) ∧
    let s : State := { withHost .copyOutput with x := ⟨0, 1024, 0, 0, 0, 0, 0, 0⟩ }
    s.host = [.copyOutput] ∧ s.x.olen.toNat = 1024 := by decide

theorem witness_ResetEventClearsResults : (withHost .reset).host = [.reset] := rfl

theorem witness_CrcComputeEffect :
    (1024 : Half).toNat ≤ ibCap State.reset.params ∧ ibCap State.reset.params < (1025 : Half).toNat := by decide

/-- An unknown command; the shortest payload that does not fit; the longest that does. -/
theorem witness_FrameBuildLPEffect :
    (0x09 : Byte) ∉ State.reset.params.cmdSet ∧
    ((0x08 : Byte) ∈ State.reset.params.cmdSet ∧ 1017 < (1018 : Half).toNat) ∧
    ((0x01 : Byte) ∈ State.reset.params.cmdSet ∧ (1017 : Half).toNat ≤ 1017) := by decide

theorem witness_FrameBuildSDEffect : 1022 < (1023 : Half).toNat ∧ (1022 : Half).toNat ≤ 1022 := by decide

/-- The branches of the chain have their states in `test_frameDecodeLP_outcomes`. -/
theorem witness_FrameDecodeLPEffect : (1024 : Half).toNat ≤ 1024 ∧ 1024 < (1025 : Half).toNat := by decide

/-- The branches of the chain have their states in `test_frameDecodeSD_outcomes`. -/
theorem witness_FrameDecodeSDEffect : (1024 : Half).toNat ≤ 1024 ∧ 1024 < (1025 : Half).toNat := by decide

/-- A payload of one byte, and the empty one. -/
theorem witness_FrameDecodeLPDeliversPayload :
    ((0x04 : Byte) ∈ modeFrame.params.cmdSet ∧ (8 : Half).toNat = ([0x01] : List Byte).length + 7 ∧
      ([0x01] : List Byte).length ≤ 1017 ∧
      modeFrame.input (8 : Half).toNat = withTrailer ([0x47, 0x01, 0x04] ++ be16Bytes (BitVec.ofNat 16 1) ++ [0x01])) ∧
    (withInput [0x47, 0x01, 0x01, 0x00, 0x00, 0xD3, 0x7C]).input (7 : Half).toNat =
      withTrailer ([0x47, 0x01, 0x01] ++ be16Bytes (BitVec.ofNat 16 0) ++ []) := by decide +kernel

/-- A message of four bytes, and the empty one. -/
theorem witness_FrameDecodeSDDeliversMessage :
    ((6 : Half).toNat = ([0x08, 0x01, 0x10, 0x47] : List Byte).length + 2 ∧
      ([0x08, 0x01, 0x10, 0x47] : List Byte).length ≤ 1022 ∧
      messageFrame.input (6 : Half).toNat = withTrailer [0x08, 0x01, 0x10, 0x47]) ∧
    (withInput [0x80, 0x0D]).input (2 : Half).toNat = withTrailer [] := by decide +kernel

/-- Each of the five operations completes. -/
theorem witness_OperationFrame :
    (∃ t, exec (.crcCompute 8) modeFrame = .next t) ∧ (∃ t, exec (.frameBuildLP 7 8) modeFrame = .next t) ∧
    (∃ t, exec (.frameBuildSD 8) modeFrame = .next t) ∧ (∃ t, exec (.frameDecodeLP 0) modeFrame = .next t) ∧
    (∃ t, exec (.frameDecodeSD 0) modeFrame = .next t) :=
  ⟨⟨_, rfl⟩, ⟨_, rfl⟩, ⟨_, rfl⟩, ⟨_, rfl⟩, ⟨_, rfl⟩⟩

theorem witness_FailureLeavesOnlyResults :
    ∃ t, exec (.frameBuildLP 9 0) State.reset = .next t ∧ t.x.status ≠ 0 := ⟨_, rfl, by decide⟩

/-- The second state differs in the byte after the input and in the registers. -/
theorem witness_OperationsAreFunctionsOfTheirInput :
    let s := withInput [0x31]
    let u : State := { withInput [0x31, 0x32] with x := ⟨5, 0, 0, 0, 0, 0, 1024, 1025⟩ }
    (Instr.crcCompute 1).wellFormed s.params = true ∧ u.params = s.params ∧
    ∀ a < (Instr.crcCompute 1).len.toNat, u.inputByte a = s.inputByte a := by
  refine ⟨rfl, rfl, fun a ha => ?_⟩
  have h : a = 0 := Nat.lt_one_iff.mp ha
  subst h
  rfl

theorem witness_OperationsCompleteExactlyInDomain :
    (∀ i ∈ [Instr.crcCompute 1024, .frameBuildLP 9 65535, .frameBuildSD 65535, .frameDecodeLP 1024, .frameDecodeSD 1024],
      i.wellFormed State.reset.params = true) ∧
    (∀ i ∈ [Instr.crcCompute 1025, .frameDecodeLP 1025, .frameDecodeSD 1025],
      i.wellFormed State.reset.params = false) := by decide

theorem witness_OperationsAreIdempotent : ∃ t, exec (.frameBuildSD 8) modeFrame = .next t := ⟨_, rfl⟩

theorem witness_StatusValuesByOperation :
    (∃ t, exec (.crcCompute 0) State.reset = .next t) ∧ (∃ t, exec (.frameBuildLP 7 1018) State.reset = .next t) ∧
    (∃ t, exec (.frameBuildSD 1023) State.reset = .next t) ∧ (∃ t, exec (.frameDecodeLP 1) State.reset = .next t) ∧
    (∃ t, exec (.frameDecodeSD 1) State.reset = .next t) := ⟨⟨_, rfl⟩, ⟨_, rfl⟩, ⟨_, rfl⟩, ⟨_, rfl⟩, ⟨_, rfl⟩⟩

theorem witness_ValidationErrorOnlyForUnknownCommand :
    (∃ t, exec (.frameBuildLP 9 0) State.reset = .next t ∧ statusKind t.x.status = 1) ∧
    (0x09 : Byte) ∉ State.reset.params.cmdSet := ⟨⟨_, rfl, by decide⟩, by decide⟩

theorem witness_FrameTooShortBelowTwoBytes :
    (∃ t, exec (.frameDecodeSD 1) State.reset = .next t ∧ statusKind t.x.status = 2) ∧ (1 : Half).toNat < 2 ∧
    (∃ t, exec (.frameDecodeSD 2) (withInput [0x80, 0x0D]) = .next t) :=
  ⟨⟨_, rfl, by decide⟩, by decide, ⟨_, rfl⟩⟩

theorem witness_ChecksumMismatchReportsBothValues :
    ∃ t, exec (.frameDecodeLP 2) (withInput [0x80, 0x0C]) = .next t ∧ statusKind t.x.status = 3 :=
  ⟨_, rfl, by decide +kernel⟩

theorem witness_DeserializationErrorCausesInOrder :
    ∃ t, exec (.frameDecodeLP 2) (withInput [0x80, 0x0D]) = .next t ∧ statusKind t.x.status = 4 :=
  ⟨_, rfl, by decide +kernel⟩

theorem witness_OversizeFrameOnlyFromBuilds :
    (∃ t, exec (.frameBuildLP 8 1018) State.reset = .next t ∧ statusKind t.x.status = 5) ∧
    (∃ t, exec (.frameBuildSD 1023) State.reset = .next t ∧ statusKind t.x.status = 5) :=
  ⟨⟨_, rfl, by decide⟩, ⟨_, rfl, by decide⟩⟩

theorem witness_StatusTellsChecksumsApart :
    (∃ t, exec (.frameDecodeLP 2) (withInput [0x80, 0x0D]) = .next t ∧ statusKind t.x.status = 4) ∧
    (∃ t, exec (.frameDecodeSD 2) (withInput [0x80, 0x0C]) = .next t ∧ t.x.status = 0x03) :=
  ⟨⟨_, rfl, by decide +kernel⟩, ⟨_, rfl, by decide +kernel⟩⟩

/-- The frame of section 4 row 4, built and decoded; the second state has it in `IB`. -/
theorem witness_LengthPrefixedRoundTrip :
    ((0x04 : Byte) ∈ State.reset.params.cmdSet ∧ (1017 : Half).toNat ≤ 1017 ∧
      ∃ t, exec (.frameBuildLP 4 1) (withInput [0x01]) = .next t ∧ modeFrame.params = (withInput [0x01]).params ∧
        modeFrame.input 8 = t.outputBytes 8) ∧
    (∃ t, exec (.frameDecodeLP 8) modeFrame = .next t ∧ t.x.status = 0 ∧
      (withInput [0x01]).params = modeFrame.params ∧ (withInput [0x01]).input 1 = t.outputBytes 1) :=
  ⟨⟨by decide, by decide, _, exec_after (by decide +kernel), rfl, by decide +kernel⟩,
    _, exec_after (by decide +kernel), by decide +kernel, rfl, by decide +kernel⟩

/-- The frame of section 5 row 2; the second state has it in `IB`. -/
theorem witness_SelfDescribingRoundTrip :
    (1022 : Half).toNat ≤ 1022 ∧
    ∃ t, exec (.frameBuildSD 4) (withInput [0x08, 0x01, 0x10, 0x47]) = .next t ∧
      messageFrame.input 6 = t.outputBytes 6 := ⟨by decide, _, exec_after (by decide +kernel), by decide +kernel⟩

/-- One bit of the payload flipped; one bit of the trailer flipped. -/
theorem witness_TamperedFramesAreDetected :
    (∃ t, exec (.frameBuildLP 4 1) (withInput [0x01]) = .next t ∧ t.x.status = 0 ∧
      bitDistance (t.outputBytes 8) ((withInput [0x47, 0x01, 0x04, 0x00, 0x01, 0x00, 0xBC, 0xEF]).input 8) % 2 = 1) ∧
    (∃ t, exec (.frameBuildSD 0) State.reset = .next t ∧ t.x.status = 0 ∧
      bitDistance (t.outputBytes 2) ((withInput [0x80, 0x0C]).input 2) % 2 = 1) :=
  ⟨⟨_, exec_after (by decide +kernel), by decide +kernel, by decide +kernel⟩,
    _, exec_after (by decide +kernel), by decide +kernel, by decide +kernel⟩

theorem witness_StepKeepsInvariant :
    (withHost (.issue 0x01000000)).Inv ∧ ∃ t, step (withHost (.issue 0x01000000)) = .next t :=
  ⟨by decide, _, rfl⟩

theorem witness_ParametersNeverChange : ∃ t, step (withHost (.issue 0x01000000)) = .next t := ⟨_, rfl⟩

/-- One byte beyond the input buffer. -/
theorem witness_OnlyHostWritesFault :
    (withHost (.writeInput 1024 [0xAA])).Inv ∧
    step (withHost (.writeInput 1024 [0xAA])) = .fault (.noSuchInputIndex 1024) := ⟨by decide, rfl⟩

theorem witness_DeviceResetFrame : (0x01 : Byte) ∈ State.reset.params.cmdSet := by decide

/-- 256 bytes pass, 257 do not (45_payload_collaborators.md R160), nor does the "no effect" port. -/
theorem witness_ModbusOneShotConstraints :
    ((1 : Byte) ∈ codes.portSet ∧ (1 : Byte) ≠ codes.portNoEffect ∧ (List.replicate 256 (0 : Byte)).length ≤ 256) ∧
    ¬ (List.replicate 257 (0 : Byte)).length ≤ 256 ∧ ¬ (0 : Byte) ≠ codes.portNoEffect := by
  rw [List.length_replicate, List.length_replicate]
  decide

/-- Both ends of both ranges, and what lies just beyond them (45_payload_collaborators.md R161). -/
theorem witness_ModbusPeriodicConstraints :
    Payload.build codes (.modbusPeriodic 1 1 0 []) = .ok [1, 1, 0, 0, 0] ∧
    Payload.build codes (.modbusPeriodic 1 64 2592000 []) = .ok [1, 64, 0x27, 0x8D, 0] ∧
    Payload.build codes (.modbusPeriodic 1 0 0 []) = .error .configIndex ∧
    Payload.build codes (.modbusPeriodic 1 65 0 []) = .error .configIndex ∧
    Payload.build codes (.modbusPeriodic 1 1 (-1) []) = .error .interval ∧
    Payload.build codes (.modbusPeriodic 1 1 2592001 []) = .error .interval := by decide

theorem witness_SelectorConstraints :
    ((0 : Byte) = codes.primaryController ∨ (0 : Byte) = codes.passiveListener) ∧
    ¬ ((2 : Byte) = codes.primaryController ∨ (2 : Byte) = codes.passiveListener) ∧
    ((2 : Byte) = codes.internalAntenna ∨ (2 : Byte) = codes.externalAntenna) ∧
    ¬ ((0 : Byte) = codes.internalAntenna ∨ (0 : Byte) = codes.externalAntenna) := by decide

/-- The "no effect" port where the open rule lets it through, and where it does not. -/
theorem witness_BaudrateConstraints :
    ((0 : Byte) ∈ codes.portSet ∧ (codes.baudrateRejectsNoEffect = true → (0 : Byte) ≠ codes.portNoEffect) ∧
      (3 : Byte) ∈ codes.baudTable) ∧
    let c : Payload.Codes := { codes with baudrateRejectsNoEffect := true }
    ¬ ((0 : Byte) ∈ c.portSet ∧ (c.baudrateRejectsNoEffect = true → (0 : Byte) ≠ c.portNoEffect) ∧
      (3 : Byte) ∈ c.baudTable) := by decide

/-- A payload, a message that fits and one that does not, and a failing builder of each scheme. -/
theorem witness_BuildersEndInABuild :
    (Payload.build codes (.setMode 1) = .ok [1] ∧ CommandId.code .deviceMode ∈ State.reset.params.cmdSet ∧
      CommandId.code .deviceMode ∉ ({ State.reset with params := ⟨0, []⟩ } : State).params.cmdSet) ∧
    Payload.build codes (.setMode 2) = .error .modeSelector ∧
    Payload.check codes codes.sdPorts (.setMode 2) = .error .modeSelector ∧
    Payload.check codes codes.sdPorts .reset = .ok .reset ∧
    (List.replicate 1022 (0 : Byte)).length ≤ 1022 ∧
    (1022 < (List.replicate 1023 (0 : Byte)).length ∧ (List.replicate 65535 (0 : Byte)).length < 65536) ∧
    ({ State.reset with host := [.writeInput 0 [1], .issue 0x10040001] } : State).host =
      [.writeInput 0 [1], .issue 0x10040001] ++ [] := by
  refine ⟨by decide, by decide, by decide, by decide, ?_, ⟨?_, ?_⟩, rfl⟩ <;> rw [List.length_replicate] <;> decide

theorem witness_PayloadBuildersNeverOversize :
    Payload.build codes (.modbusOneShot 1 [0xAA]) = .ok [1, 0xAA] := by decide

end Sys2Proof.Tests
end

section
/-!
PROOFS. Operations depend on their command word and their input bytes only (00_scope.md R12). The idea:
an operation ends in `State.finish`, so two states are compared by the results and the output that
`finish` is given, and these are the same whenever the two states agree on the parameters and the input.
-/
namespace Sys2Proof.Machine

/-- The outcomes of an operation in `s` and in `u` are completions with the same result registers and the
same bytes for `OB`, whose number is `OLEN`. -/
def CompleteAlike (s u : State) (o p : Host.Outcome State Fault Refusal) : Prop :=
  ∃ (x : Results) (out : List Byte), x.olen = BitVec.ofNat 32 out.length ∧
    o = .next (s.finish x out) ∧ p = .next (u.finish x out)

theorem completeAlike_succeed (s u : State) (r : Success) :
    CompleteAlike s u (.next (s.succeed r)) (.next (u.succeed r)) := ⟨_, _, rfl, rfl, rfl⟩

theorem completeAlike_raise (s u : State) (k : Kind) (sub : Sub) (e a : Nat) (sums : Option Checksums) :
    CompleteAlike s u (.next (s.raise k sub e a sums)) (.next (u.raise k sub e a sums)) :=
  ⟨_, [], rfl, rfl, rfl⟩

/-- Two states that complete alike show the host the same registers and the same valid output. -/
theorem CompleteAlike.results_output {s u : State} {o p : Host.Outcome State Fault Refusal}
    (h : CompleteAlike s u o p) :
    ∃ t v, o = .next t ∧ p = .next v ∧ v.x = t.x ∧ ∀ a < t.x.olen.toNat, v.outputByte a = t.outputByte a := by
  obtain ⟨x, out, holen, ho, hp⟩ := h
  refine ⟨_, _, ho, hp, rfl, fun a ha => ?_⟩
  have hlt : a < out.length := by
    rw [State.finish_x, holen, BitVec.toNat_ofNat] at ha
    exact Nat.lt_of_lt_of_le ha (Nat.mod_le _ _)
  rw [State.finish_outputByte, State.finish_outputByte, dif_pos hlt, dif_pos hlt]

section SameInput
variable {s u : State} {n : Nat}

/-- Equal bytes below the length are equal trailers (42_frame_decode.md R130). -/
theorem State.inputHalf_trailer_congr (hn : 2 ≤ n) (h : ∀ a < n, u.inputByte a = s.inputByte a) :
    u.inputHalf (n - 2) = s.inputHalf (n - 2) := by
  rw [State.inputHalf, State.inputHalf, h (n - 2) (by omega), h (n - 2 + 1) (by omega)]

/-- The inputs that the two decodes parse are equal, too. -/
theorem State.input_remainder_congr (h : ∀ a < n, u.inputByte a = s.inputByte a) :
    u.input (n - 2) = s.input (n - 2) :=
  State.input_congr fun a ha => h a (by omega)

/-- The frame check verifies the same checksum in two states with the same frame, or fails in both with
the same values (42_frame_decode.md R130). -/
theorem State.verifyFrame_congr (h : ∀ a < n, u.inputByte a = s.inputByte a) :
    (∃ sum, s.verifyFrame n = .ok sum ∧ u.verifyFrame n = .ok sum) ∨
    (∃ k sub e a sums, s.verifyFrame n = .error (s.raise k sub e a sums) ∧
      u.verifyFrame n = .error (u.raise k sub e a sums)) := by
  simp only [State.verifyFrame_eq]
  by_cases hn : n < 2
  · simp only [if_pos hn]
    exact .inr ⟨_, _, _, _, _, rfl, rfl⟩
  · rw [State.inputHalf_trailer_congr (Nat.le_of_not_lt hn) h, State.input_remainder_congr h]
    simp only [if_neg hn]
    by_cases hsum : s.inputHalf (n - 2) = crc16 (s.input (n - 2))
    · simp only [if_pos hsum]
      exact .inl ⟨_, rfl, rfl⟩
    · simp only [if_neg hsum]
      exact .inr ⟨_, _, _, _, _, rfl, rfl⟩

end SameInput

section Operations
variable {s u : State} {n : Half}

theorem execCrcCompute_completeAlike (hn : n.toNat ≤ ibCap s.params) (hp : u.params = s.params)
    (h : ∀ a < n.toNat, u.inputByte a = s.inputByte a) :
    CompleteAlike s u (execCrcCompute n s) (execCrcCompute n u) := by
  simp only [execCrcCompute, hp, if_pos hn, State.input_congr h]
  exact completeAlike_succeed s u _

theorem execFrameBuildLP_completeAlike (cmd : Byte) (hp : u.params = s.params)
    (h : ∀ a < n.toNat, u.inputByte a = s.inputByte a) :
    CompleteAlike s u (execFrameBuildLP cmd n s) (execFrameBuildLP cmd n u) := by
  simp only [execFrameBuildLP, hp, State.input_congr h]
  split
  case isTrue => exact completeAlike_raise s u _ _ _ _ _
  case isFalse =>
    split
    case isTrue => exact completeAlike_raise s u _ _ _ _ _
    case isFalse => exact completeAlike_succeed s u _

theorem execFrameBuildSD_completeAlike (h : ∀ a < n.toNat, u.inputByte a = s.inputByte a) :
    CompleteAlike s u (execFrameBuildSD n s) (execFrameBuildSD n u) := by
  simp only [execFrameBuildSD, State.input_congr h]
  split
  case isTrue => exact completeAlike_raise s u _ _ _ _ _
  case isFalse => exact completeAlike_succeed s u _

theorem execFrameDecodeLP_completeAlike (hn : n.toNat ≤ maxFrame) (hp : u.params = s.params)
    (h : ∀ a < n.toNat, u.inputByte a = s.inputByte a) :
    CompleteAlike s u (execFrameDecodeLP n s) (execFrameDecodeLP n u) := by
  simp only [execFrameDecodeLP, if_pos hn]
  rcases State.verifyFrame_congr h with ⟨sum, hs, hu⟩ | ⟨k, sub, e, a, sums, hs, hu⟩
  · simp only [hs, hu, hp, crcLen, State.input_remainder_congr h]
    cases parseRemainder s.params.cmdSet (s.input (n.toNat - 2)) with
    | error e => exact completeAlike_raise s u _ _ _ _ _
    | ok p => exact completeAlike_succeed s u _
  · simp only [hs, hu]
    exact completeAlike_raise s u _ _ _ _ _

theorem execFrameDecodeSD_completeAlike (hn : n.toNat ≤ maxFrame)
    (h : ∀ a < n.toNat, u.inputByte a = s.inputByte a) :
    CompleteAlike s u (execFrameDecodeSD n s) (execFrameDecodeSD n u) := by
  simp only [execFrameDecodeSD, if_pos hn]
  rcases State.verifyFrame_congr h with ⟨sum, hs, hu⟩ | ⟨k, sub, e, a, sums, hs, hu⟩
  · simp only [hs, hu, crcLen, State.input_remainder_congr h]
    exact completeAlike_succeed s u _
  · simp only [hs, hu]
    exact completeAlike_raise s u _ _ _ _ _

end Operations

/-- Inside its domain an operation completes alike in any two states of the same parameters with the same
input bytes (00_scope.md R12). -/
theorem exec_completeAlike {i : Instr} {s u : State} (hwf : i.wellFormed s.params = true)
    (hp : u.params = s.params) (h : ∀ a < i.len.toNat, u.inputByte a = s.inputByte a) :
    CompleteAlike s u (exec i s) (exec i u) := by
  cases i with
  | crcCompute n => exact execCrcCompute_completeAlike (of_decide_eq_true hwf) hp h
  | frameBuildLP cmd n => exact execFrameBuildLP_completeAlike cmd hp h
  | frameBuildSD n => exact execFrameBuildSD_completeAlike h
  | frameDecodeLP n => exact execFrameDecodeLP_completeAlike (of_decide_eq_true hwf) hp h
  | frameDecodeSD n => exact execFrameDecodeSD_completeAlike (of_decide_eq_true hwf) h

/-- Settles O27: the two completions have one set of results and one output in common. -/
theorem operationsAreFunctionsOfTheirInput : Obligations.OperationsAreFunctionsOfTheirInput := by
  intro i s u hwf hp h
  exact (exec_completeAlike hwf hp h).results_output

end Sys2Proof.Machine
end

section
/-!
PROOFS. The state of the block: the invariant that every step keeps, the frame of every operation, the
values of `STATUS`, and reset (10_state.md R26 to R38, 60_exceptions.md R182, R189). The idea of the
invariant: an operation ends in `State.finish`, which keeps the buffers and writes the output it reports,
and what it reports is either a success or a failure whose kind fixes the checksums.
-/
namespace Sys2Proof.Machine

/-! ## Reset -/

@[simp] theorem Results.zero_get (i : Fin 8) : Results.zero.get i = 0 := by
  fin_cases i <;> rfl

theorem Results.zero_legal : Results.zero.Legal := by decide

/-- A state with no byte of either buffer written and every result register 0 meets the invariant. -/
theorem State.inv_of_cleared {s : State} (hib : s.ib = []) (hob : s.ob = []) (hx : s.x = .zero) : s.Inv := by
  refine ⟨⟨?_, ?_, ?_, ?_⟩, ?_, ?_⟩
  · simp [hib]
  · simp [hob]
  · simp [hib]
  · simp [hob]
  · rw [hx]; exact Results.zero_legal
  · simp [State.OutputWritten, hx, Results.zero]

/-- Settles O41: after reset both buffers are empty and the registers are 0. -/
theorem resetMeetsInvariant : Obligations.ResetMeetsInvariant :=
  State.inv_of_cleared rfl rfl rfl

/-- Settles O17: the state after reset, field by field. -/
theorem resetState : Obligations.ResetState :=
  ⟨Results.zero_get, fun _ => ⟨rfl, rfl⟩, rfl, by decide⟩

/-! ## Steps -/

/-- A pending reset event is the next step (70_reset_and_hazards.md R200). -/
theorem step_of_reset {s : State} {rest : List HostAction} (hs : s.host = .reset :: rest) :
    step s = .next (State.hostReset { s with host := rest }) := by
  simp only [step, hs]

/-- A pending write of `CW` latches the word and runs its operation in the next step (10_state.md R26). -/
theorem step_of_issue {s : State} {w : Word} {rest : List HostAction} (hs : s.host = .issue w :: rest) :
    step s = State.runCommand (State.latchCommand { s with host := rest } w) := by
  simp only [step, hs]

/-- A latched word runs the operation it decodes to (30_encoding.md R71). -/
theorem State.runCommand_of_decode {s : State} {i : Instr} (h : decode s.cw = .ok i) :
    s.runCommand = exec i s := by
  simp only [State.runCommand, h]

/-- Settles O13: the step latches the word and runs what it decodes to. -/
theorem stepRunsDecodedOperation : Obligations.StepRunsDecodedOperation := by
  intro s w rest i hs hdec
  rw [step_of_issue hs]
  exact State.runCommand_of_decode hdec

/-- Settles O16: the reset event leaves both buffers empty and every result register 0. -/
theorem resetEventClearsResults : Obligations.ResetEventClearsResults := by
  intro s rest hs
  exact ⟨_, step_of_reset hs, Results.zero_get, fun _ => ⟨rfl, rfl⟩, rfl, rfl, rfl⟩

/-! ## The result registers an operation leaves -/

@[simp] theorem statusKind_statusWord (k : Kind) (sub : Sub) : statusKind (statusWord k sub) = k.code := by
  cases k <;> cases sub <;> rfl

/-- No error reads as success (10_state.md R29). -/
theorem statusWord_ne_ok (k : Kind) (sub : Sub) : statusWord k sub ≠ statusOk := by
  cases k <;> cases sub <;> decide

/-- `OLEN` is the number of output bytes, which fits the register (10_state.md R31). -/
theorem olen_toNat {len : Nat} (h : len ≤ obCap) : (BitVec.ofNat 32 len).toNat = len := by
  simp only [obCap, maxFrame] at h
  rw [BitVec.toNat_ofNat]
  omega

/-- A register that takes a 16-bit value holds one (10_state.md R32, R33, R35). -/
theorem setWidth_half_lt (v : Half) : (v.setWidth 32).toNat < 65536 := by
  rw [BitVec.toNat_setWidth_of_le (by decide)]
  exact v.isLt

/-- A register that takes a byte holds one (10_state.md R34). -/
theorem setWidth_byte_lt (v : Byte) : (v.setWidth 32).toNat < 256 := by
  rw [BitVec.toNat_setWidth_of_le (by decide)]
  exact v.isLt

/-- Different 16-bit values are different in the registers. -/
theorem setWidth_half_inj {v w : Half} (h : v.setWidth 32 = w.setWidth 32) : v = w := by
  have := congrArg (BitVec.setWidth 16) h
  simpa using this

/-- What a success reports is legal as soon as its output fits `OB`. -/
theorem successResults_legal {r : Success} (h : r.out.length ≤ obCap) : (successResults r).Legal := by
  have hkind : statusKind (successResults r).status = 0 := rfl
  rw [Results.Legal, hkind]
  exact ⟨List.mem_cons_self, (olen_toNat h).trans_le h, setWidth_half_lt _, setWidth_half_lt _,
    setWidth_byte_lt _, setWidth_half_lt _, Nat.zero_le _, Nat.zero_le _, fun _ => ⟨rfl, rfl⟩,
    fun hne => absurd rfl hne, fun hk => absurd hk (by decide), fun hk => absurd hk (by decide),
    fun hk => absurd hk (by decide)⟩

/-- The checksums a failure of each kind carries, given its expected and actual values: the two that
differ, one checksum twice, or none (42_frame_decode.md R142, 60_exceptions.md R189). -/
def Kind.Carries : Kind → Nat → Nat → Option Checksums → Prop
  | .checksumMismatch, e, a, sums =>
    ∃ comp recv : Half, recv ≠ comp ∧ e = comp.toNat ∧ a = recv.toNat ∧ sums = some ⟨comp, recv⟩
  | .deserializationError, _, _, sums => ∃ sum, sums = some ⟨sum, sum⟩
  | .validationError, _, _, sums => sums = none
  | .frameTooShort, _, _, sums => sums = none
  | .oversizeFrame, _, _, sums => sums = none

/-- Only a kind without checksums has code 1, 2 or 5. -/
theorem Kind.Carries.sums_eq_none {k : Kind} {e a : Nat} {sums : Option Checksums} (h : k.Carries e a sums)
    (hk : k.code ∈ [1, 2, 5]) : sums = none := by
  cases k with
  | validationError | frameTooShort | oversizeFrame => exact h
  | checksumMismatch | deserializationError => exact absurd hk (by decide)

/-- Only a checksum mismatch has code 3: its checksums differ and are its two values. -/
theorem Kind.Carries.checksums_differ {k : Kind} {e a : Nat} {sums : Option Checksums} (h : k.Carries e a sums)
    (hk : k.code = 3) :
    ∃ comp recv : Half, recv ≠ comp ∧ e = comp.toNat ∧ a = recv.toNat ∧ sums = some ⟨comp, recv⟩ := by
  cases k with
  | checksumMismatch => exact h
  | validationError | frameTooShort | deserializationError | oversizeFrame => exact absurd hk (by decide)

/-- Only a deserialization error has code 4: it carries the verified checksum twice. -/
theorem Kind.Carries.checksums_agree {k : Kind} {e a : Nat} {sums : Option Checksums} (h : k.Carries e a sums)
    (hk : k.code = 4) : ∃ sum, sums = some ⟨sum, sum⟩ := by
  cases k with
  | deserializationError => exact h
  | validationError | frameTooShort | checksumMismatch | oversizeFrame => exact absurd hk (by decide)

/-- The checksum registers of a failure are 16-bit values (10_state.md R32, R33). -/
theorem failureResults_checksums_lt (k : Kind) (sub : Sub) (e a : Nat) (sums : Option Checksums) :
    (failureResults k sub e a sums).crcComp.toNat < 65536 ∧
      (failureResults k sub e a sums).crcRecv.toNat < 65536 := by
  cases sums with
  | none => exact ⟨Nat.zero_lt_succ _, Nat.zero_lt_succ _⟩
  | some c => exact ⟨setWidth_half_lt c.comp, setWidth_half_lt c.recv⟩

/-- What a failure reports is legal as soon as its status is one of the ten, its values are in range and
its checksums are those of its kind. -/
theorem failureResults_legal {k : Kind} {sub : Sub} {e a : Nat} {sums : Option Checksums}
    (hstatus : statusWord k sub ∈ statusValues) (he : e ≤ 65542) (ha : a ≤ 65542) (hsums : k.Carries e a sums) :
    (failureResults k sub e a sums).Legal := by
  have hkind : statusKind (failureResults k sub e a sums).status = k.code := statusKind_statusWord k sub
  obtain ⟨hcomp, hrecv⟩ := failureResults_checksums_lt k sub e a sums
  rw [Results.Legal, hkind]
  refine ⟨hstatus, Nat.zero_le _, hcomp, hrecv, Nat.zero_lt_succ _, Nat.zero_lt_succ _,
    (Nat.mod_le _ _).trans he, (Nat.mod_le _ _).trans ha, fun hok => absurd hok (statusWord_ne_ok k sub),
    fun _ => ⟨rfl, rfl, rfl⟩, fun hk => ?none, fun hk => ?mismatch, fun hk => ?same⟩
  case none =>
    obtain rfl := hsums.sums_eq_none hk
    exact ⟨rfl, rfl⟩
  case mismatch =>
    obtain ⟨comp, recv, hne, rfl, rfl, rfl⟩ := hsums.checksums_differ hk
    exact ⟨fun heq => hne (setWidth_half_inj heq).symm, BitVec.ofNat_toNat .., BitVec.ofNat_toNat ..⟩
  case same =>
    obtain ⟨sum, rfl⟩ := hsums.checksums_agree hk
    rfl

/-- The status of a remainder that does not parse (60_exceptions.md R182 table). -/
theorem statusWord_deserializationError_mem {sub : Sub}
    (h : sub ∈ [Sub.truncated, .badHeader, .badVersion, .unknownCommand, .lengthMismatch]) :
    statusWord .deserializationError sub ∈ [0x14, 0x24, 0x34, 0x44, 0x54] := by
  cases sub with
  | noCause => exact absurd h (by decide)
  | truncated | badHeader | badVersion | unknownCommand | lengthMismatch => decide

/-- However an operation ends, its result registers are legal together. -/
theorem OperationEnd.results_legal {s t : State} (h : OperationEnd s t) : t.x.Legal := by
  rcases h with ⟨r, hr, rfl⟩ | ⟨cmd, rfl⟩ | ⟨size, hsize, rfl⟩ | (⟨n, hn, rfl⟩ | ⟨comp, recv, hne, rfl⟩) |
    ⟨sub, e, a, sum, hsub, he, ha, rfl⟩
  · exact successResults_legal hr
  · have hcmd := cmd.isLt
    exact failureResults_legal (by decide) (Nat.zero_le _) (by omega) rfl
  · exact failureResults_legal (by decide) (by decide) hsize rfl
  · exact failureResults_legal (by decide) (by decide) (by omega) rfl
  · have hcomp := comp.isLt
    have hrecv := recv.isLt
    exact failureResults_legal (by decide) (by omega) (by omega) ⟨comp, recv, hne, rfl, rfl, rfl⟩
  · have hvalues : [0x14, 0x24, 0x34, 0x44, 0x54] ⊆ statusValues := by decide
    exact failureResults_legal (hvalues (statusWord_deserializationError_mem hsub)) (by omega) (by omega) ⟨sum, rfl⟩

/-! ## The invariant -/

/-- The end of an operation keeps both buffers in form, since its output fits `OB` (20_memory.md R51). -/
theorem State.finish_buffersWf {s : State} (hs : s.BuffersWf) (x : Results) {out : List Byte}
    (hout : out.length ≤ obCap) : (s.finish x out).BuffersWf := by
  obtain ⟨hib, hob, hibBelow, hobBelow⟩ := hs
  exact ⟨hib, Memory.writeBytes_wf out hob 0, hibBelow, Memory.writeBytes_below out hobBelow 0 (by omega)⟩

/-- The end of an operation writes all of the output it reports (10_state.md R31). -/
theorem State.finish_outputWritten (s : State) {x : Results} {out : List Byte}
    (holen : x.olen = BitVec.ofNat 32 out.length) (hout : out.length ≤ obCap) : (s.finish x out).OutputWritten := by
  intro a ha
  rw [State.finish_x, holen, olen_toNat hout] at ha
  rw [State.finish_ob, Memory.read_writeBytes, dif_pos ⟨Nat.zero_le a, ha⟩]
  exact Option.some_ne_none _

/-- An operation on buffers in form ends in the invariant, whatever the registers held before. -/
theorem exec_inv {i : Instr} {s t : State} (hs : s.BuffersWf) (h : exec i s = .next t) : t.Inv := by
  have hlegal : t.x.Legal := (exec_next h).results_legal
  obtain ⟨x, out, rfl, holen, hout⟩ := exec_finish h
  exact ⟨State.finish_buffersWf hs x hout, hlegal, State.finish_outputWritten s holen hout⟩

/-- Bytes that the host writes below `IB_CAP` keep the invariant (20_memory.md R50, R60). -/
theorem State.writeBytes_ib_inv {s : State} (hs : s.Inv) {a : Nat} {bytes : List Byte}
    (h : bytes = [] ∨ a + bytes.length ≤ ibCap s.params) :
    State.Inv { s with ib := Memory.writeBytes s.ib a bytes } := by
  obtain ⟨⟨hib, hob, hibBelow, hobBelow⟩, hlegal, hout⟩ := hs
  refine ⟨⟨Memory.writeBytes_wf bytes hib a, hob, ?_, hobBelow⟩, hlegal, hout⟩
  rcases h with rfl | hfit
  · exact hibBelow
  · exact Memory.writeBytes_below bytes hibBelow a hfit

theorem State.hostWrite_inv {s t : State} (hs : s.Inv) {a : Nat} {bytes : List Byte}
    (h : s.hostWrite a bytes = .next t) : t.Inv := by
  obtain ⟨hfit, rfl⟩ := State.hostWrite_next h
  exact State.writeBytes_ib_inv hs hfit

/-- `OLEN` is at most 1024 and `IB_CAP` at least that, so a host copy of the output fits `IB`. -/
theorem State.hostCopyOutput_inv {s t : State} (hs : s.Inv) (h : s.hostCopyOutput = .next t) : t.Inv := by
  obtain ⟨holen, rfl⟩ := State.hostCopyOutput_next h
  refine State.writeBytes_ib_inv hs (.inr ?_)
  simp only [State.outputBytes, List.length_map, List.length_range, ibCap]
  simp only [obCap] at holen
  omega

/-- The reset event ends in the invariant from any state (10_state.md R38). -/
theorem State.hostReset_inv (s : State) : s.hostReset.Inv := State.inv_of_cleared rfl rfl rfl

/-- Settles O40, by the cases of a step; taking an action off the host's list and latching `CW` touch
nothing the invariant speaks of. -/
theorem stepKeepsInvariant : Obligations.StepKeepsInvariant := by
  intro s t hs h
  rcases step_next h with ⟨_, rfl⟩ | ⟨a, bytes, rest, _, hwrite⟩ | ⟨rest, _, hcopy⟩ |
    ⟨w, rest, i, _, _, hexec⟩ | ⟨rest, _, rfl⟩
  · exact hs
  · exact State.hostWrite_inv (s := { s with host := rest }) hs hwrite
  · exact State.hostCopyOutput_inv (s := { s with host := rest }) hs hcopy
  · exact exec_inv (s := State.latchCommand { s with host := rest } w) hs.1 hexec
  · exact State.hostReset_inv _

/-! ## What each operation can do -/

/-- CRC.COMPUTE completes inside its domain only, and then succeeds with no output (40_crc.md R97). -/
theorem exec_crcCompute_next {n : Half} {s t : State} (h : exec (.crcCompute n) s = .next t) :
    n.toNat ≤ ibCap s.params ∧ t = s.succeed { out := [], comp := crc16 (s.input n.toNat) } := by
  simp only [exec, execCrcCompute] at h
  split at h
  case isTrue hn => cases h; exact ⟨hn, rfl⟩
  case isFalse => cases h

/-- The three ends of FRAME.BUILD.LP, the command checked before the size (41_frame_build.md R112). -/
theorem exec_frameBuildLP_next {cmd : Byte} {n : Half} {s t : State} (h : exec (.frameBuildLP cmd n) s = .next t) :
    (cmd ∉ s.params.cmdSet ∧ t = s.raise .validationError .unknownCommand 0 cmd.toNat none) ∨
    (cmd ∈ s.params.cmdSet ∧ maxFrame < n.toNat + envelopeLP ∧
      t = s.raise .oversizeFrame .noCause maxFrame (n.toNat + envelopeLP) none) ∨
    (cmd ∈ s.params.cmdSet ∧ n.toNat + envelopeLP ≤ maxFrame ∧
      t = s.deliverFrame (headBytes cmd n ++ s.input n.toNat)) := by
  simp only [exec, execFrameBuildLP] at h
  split at h
  case isTrue hcmd => cases h; exact .inl ⟨hcmd, rfl⟩
  case isFalse hcmd =>
    have hcmd := not_not.mp hcmd
    split at h
    case isTrue hsize => cases h; exact .inr (.inl ⟨hcmd, hsize, rfl⟩)
    case isFalse hsize => cases h; exact .inr (.inr ⟨hcmd, Nat.le_of_not_lt hsize, rfl⟩)

/-- The two ends of FRAME.BUILD.SD (41_frame_build.md R116). -/
theorem exec_frameBuildSD_next {n : Half} {s t : State} (h : exec (.frameBuildSD n) s = .next t) :
    (maxFrame < n.toNat + crcLen ∧ t = s.raise .oversizeFrame .noCause maxFrame (n.toNat + crcLen) none) ∨
    (n.toNat + crcLen ≤ maxFrame ∧ t = s.deliverFrame (s.input n.toNat)) := by
  simp only [exec, execFrameBuildSD] at h
  split at h
  case isTrue hsize => cases h; exact .inl ⟨hsize, rfl⟩
  case isFalse hsize => cases h; exact .inr ⟨Nat.le_of_not_lt hsize, rfl⟩

/-- FRAME.DECODE.LP fails its frame check, fails to parse, or delivers the payload (42_frame_decode.md R132). -/
theorem exec_frameDecodeLP_next {n : Half} {s t : State} (h : exec (.frameDecodeLP n) s = .next t) :
    n.toNat ≤ maxFrame ∧
    (s.verifyFrame n.toNat = .error t ∨
     (∃ sum e, s.verifyFrame n.toNat = .ok sum ∧
       parseRemainder s.params.cmdSet (s.input (n.toNat - crcLen)) = .error e ∧
       t = s.raise .deserializationError e.sub e.exp e.act (some ⟨sum, sum⟩)) ∨
     (∃ sum p, s.verifyFrame n.toNat = .ok sum ∧
       parseRemainder s.params.cmdSet (s.input (n.toNat - crcLen)) = .ok p ∧
       t = s.succeed { out := p.payload, comp := sum, recv := sum, cmd := p.cmd, len := p.len })) := by
  simp only [exec, execFrameDecodeLP] at h
  split at h
  case isFalse => cases h
  case isTrue hn =>
    refine ⟨hn, ?_⟩
    split at h
    case h_1 u hv => cases h; exact .inl hv
    case h_2 sum hv =>
      split at h
      case h_1 e he => cases h; exact .inr (.inl ⟨sum, e, hv, he, rfl⟩)
      case h_2 p hp => cases h; exact .inr (.inr ⟨sum, p, hv, hp, rfl⟩)

/-- FRAME.DECODE.SD fails its frame check or delivers the remainder (42_frame_decode.md R137). -/
theorem exec_frameDecodeSD_next {n : Half} {s t : State} (h : exec (.frameDecodeSD n) s = .next t) :
    n.toNat ≤ maxFrame ∧
    (s.verifyFrame n.toNat = .error t ∨
     (∃ sum, s.verifyFrame n.toNat = .ok sum ∧
       t = s.succeed { out := s.input (n.toNat - crcLen), comp := sum, recv := sum })) := by
  simp only [exec, execFrameDecodeSD] at h
  split at h
  case isFalse => cases h
  case isTrue hn =>
    refine ⟨hn, ?_⟩
    split at h
    case h_1 u hv => cases h; exact .inl hv
    case h_2 sum hv => cases h; exact .inr ⟨sum, hv, rfl⟩

/-! ## The frame of every operation -/

/-- Beyond its output an operation's end leaves `OB` as it was, written or not (10_state.md R37). -/
theorem State.finish_output_beyond (s : State) (x : Results) {out : List Byte} {a : Nat} (ha : out.length ≤ a) :
    (s.finish x out).outputByte a = s.outputByte a ∧
      Memory.read (s.finish x out).ob a = Memory.read s.ob a := by
  constructor
  · rw [State.finish_outputByte, dif_neg (Nat.not_lt.mpr ha)]
  · rw [State.finish_ob, Memory.read_writeBytes, dif_neg fun h => Nat.not_lt.mpr ha h.2]

/-- The end of an operation changes nothing outside `OB`, the registers and the working state. -/
theorem State.finish_sameSurroundings (s : State) (x : Results) (out : List Byte) :
    SameSurroundings s (s.finish x out) := ⟨rfl, rfl, rfl, rfl, rfl, rfl⟩

/-- Settles O25: an operation ends in `State.finish`, whose output has `OLEN` bytes. -/
theorem operationFrame : Obligations.OperationFrame := by
  intro i s t h
  have hcrc : ∀ n, i = .crcCompute n → t.x.olen = 0 := by
    rintro n rfl
    rw [(exec_crcCompute_next h).2]
    rfl
  obtain ⟨x, out, rfl, holen, hout⟩ := exec_finish h
  have hlen : (s.finish x out).x.olen.toNat = out.length := by rw [State.finish_x, holen, olen_toNat hout]
  rw [hlen]
  exact ⟨s.finish_sameSurroundings x out, hout, fun _ ha => s.finish_output_beyond x ha, fun _ => rfl, hcrc⟩

/-! ## The values of `STATUS` -/

/-- A failed frame check leaves 02 or 03 (60_exceptions.md R184, R185). -/
theorem State.verifyFrame_error_status {s t : State} {n : Nat} (h : s.verifyFrame n = .error t) :
    t.x.status = 0x02 ∨ t.x.status = 0x03 := by
  rcases State.verifyFrame_failure h with ⟨_, _, rfl⟩ | ⟨_, _, _, rfl⟩
  · exact .inl rfl
  · exact .inr rfl

theorem exec_frameBuildLP_status {cmd : Byte} {n : Half} {s t : State}
    (h : exec (.frameBuildLP cmd n) s = .next t) : t.x.status ∈ [0x00, 0x41, 0x05] := by
  rcases exec_frameBuildLP_next h with ⟨_, rfl⟩ | ⟨_, _, rfl⟩ | ⟨_, _, rfl⟩
  · show statusWord .validationError .unknownCommand ∈ _
    decide
  · show statusWord .oversizeFrame .noCause ∈ _
    decide
  · exact List.mem_cons_self

theorem exec_frameBuildSD_status {n : Half} {s t : State} (h : exec (.frameBuildSD n) s = .next t) :
    t.x.status ∈ [0x00, 0x05] := by
  rcases exec_frameBuildSD_next h with ⟨_, rfl⟩ | ⟨_, rfl⟩
  · show statusWord .oversizeFrame .noCause ∈ _
    decide
  · exact List.mem_cons_self

theorem exec_frameDecodeLP_status {n : Half} {s t : State} (h : exec (.frameDecodeLP n) s = .next t) :
    t.x.status ∈ [0x00, 0x02, 0x03, 0x14, 0x24, 0x34, 0x44, 0x54] := by
  obtain ⟨hn, hv | ⟨sum, e, _, he, rfl⟩ | ⟨sum, p, _, _, rfl⟩⟩ := exec_frameDecodeLP_next h
  · rcases State.verifyFrame_error_status hv with hst | hst <;> simp [hst]
  · have hlen : (s.input (n.toNat - crcLen)).length < 65536 := by
      simp only [maxFrame] at hn
      simp only [State.input_length, crcLen]
      omega
    have hsub := (parseRemainder_error he hlen).1
    have hvalues : [0x14, 0x24, 0x34, 0x44, 0x54] ⊆ [0x00, 0x02, 0x03, 0x14, 0x24, 0x34, 0x44, (0x54 : Word)] := by
      decide
    exact hvalues (statusWord_deserializationError_mem hsub)
  · exact List.mem_cons_self

theorem exec_frameDecodeSD_status {n : Half} {s t : State} (h : exec (.frameDecodeSD n) s = .next t) :
    t.x.status ∈ [0x00, 0x02, 0x03] := by
  obtain ⟨_, hv | ⟨sum, _, rfl⟩⟩ := exec_frameDecodeSD_next h
  · rcases State.verifyFrame_error_status hv with hst | hst <;> simp [hst]
  · exact List.mem_cons_self

/-- Settles O30, operation by operation. -/
theorem statusValuesByOperation : Obligations.StatusValuesByOperation := by
  intro s t cmd n
  refine ⟨fun h => ?_, exec_frameBuildLP_status, exec_frameBuildSD_status, exec_frameDecodeLP_status,
    exec_frameDecodeSD_status⟩
  rw [(exec_crcCompute_next h).2]
  rfl

end Sys2Proof.Machine
end

section
/-!
PROOFS. The buffers: what a host write to `IB` does and when it does not exist, that nothing else faults,
and that an operation issued again changes nothing visible (20_memory.md R50, R56, R59, R60, R61). The
idea of the last: an operation leaves `IB` as it was, so the second run completes alike and its
`State.finish` writes the same output over itself.
-/
namespace Sys2Proof.Machine

/-! ## Host writes -/

/-- A pending host write to `IB` is the next step (20_memory.md R61). -/
theorem step_of_writeInput {s : State} {a : Nat} {bytes : List Byte} {rest : List HostAction}
    (hs : s.host = .writeInput a bytes :: rest) : step s = State.hostWrite { s with host := rest } a bytes := by
  simp only [step, hs]

/-- A host write that stays below `IB_CAP` completes (20_memory.md R50). -/
theorem State.hostWrite_of_fits {s : State} {a : Nat} {bytes : List Byte} (h : a + bytes.length ≤ ibCap s.params) :
    s.hostWrite a bytes = .next { s with ib := Memory.writeBytes s.ib a bytes } :=
  if_pos (.inr h)

/-- What `IB` reads as once bytes are written to it (20_memory.md R56). -/
theorem State.inputByte_writeBytes (s : State) (a : Nat) (bytes : List Byte) (k : Nat) :
    State.inputByte { s with ib := Memory.writeBytes s.ib a bytes } k =
      if h : a ≤ k ∧ k - a < bytes.length then bytes[k - a] else s.inputByte k := by
  simp only [State.inputByte, Memory.read_writeBytes]
  split <;> rfl

/-- Settles O14: the step is the host write, which touches `IB` only. -/
theorem hostWriteLoadsInput : Obligations.HostWriteLoadsInput := by
  intro s a bytes rest hs hfit
  have hstep := (step_of_writeInput hs).trans (State.hostWrite_of_fits (s := { s with host := rest }) hfit)
  exact ⟨_, hstep, State.inputByte_writeBytes { s with host := rest } a bytes, rfl, rfl, rfl, rfl, rfl, rfl, rfl,
    rfl, rfl⟩

/-! ## The domain of an operation -/

/-- Inside its domain an operation completes (40_crc.md R97, 42_frame_decode.md R131). -/
theorem exec_completes {i : Instr} {s : State} (h : i.wellFormed s.params = true) : ∃ t, exec i s = .next t := by
  obtain ⟨x, out, _, hs, _⟩ := exec_completeAlike h rfl fun _ _ => rfl
  exact ⟨_, hs⟩

/-- Outside its domain an operation is refused (40_crc.md R97, 42_frame_decode.md R131). -/
theorem exec_refused {i : Instr} {s : State} (h : i.wellFormed s.params = false) : ∃ r, exec i s = .refused r := by
  cases i with
  | crcCompute n => exact ⟨_, if_neg (of_decide_eq_false h)⟩
  | frameBuildLP cmd n => cases h
  | frameBuildSD n => cases h
  | frameDecodeLP n => exact ⟨_, if_neg (of_decide_eq_false h)⟩
  | frameDecodeSD n => exact ⟨_, if_neg (of_decide_eq_false h)⟩

/-- An operation that completes was issued inside its domain. -/
theorem wellFormed_of_exec_next {i : Instr} {s t : State} (h : exec i s = .next t) :
    i.wellFormed s.params = true := by
  by_contra hwf
  obtain ⟨r, hr⟩ := exec_refused (Bool.eq_false_of_not_eq_true hwf)
  cases h.symm.trans hr

/-- No operation faults (60_exceptions.md R180). -/
theorem exec_ne_fault (i : Instr) (s : State) (r : Fault) : exec i s ≠ .fault r := by
  intro h
  cases hwf : i.wellFormed s.params with
  | true =>
    obtain ⟨t, ht⟩ := exec_completes hwf
    cases h.symm.trans ht
  | false =>
    obtain ⟨r', hr'⟩ := exec_refused hwf
    cases h.symm.trans hr'

/-! ## An operation issued again -/

/-- An output written over itself leaves `OB` as it was. -/
theorem State.finish_finish_outputByte (s : State) (x y : Results) (out : List Byte) (a : Nat) :
    ((s.finish x out).finish y out).outputByte a = (s.finish x out).outputByte a := by
  rw [State.finish_outputByte]
  split
  case isTrue ha => rw [State.finish_outputByte, dif_pos ha]
  case isFalse => rfl

/-- Settles O29: the first run keeps the parameters and `IB`, so the second completes alike. -/
theorem operationsAreIdempotent : Obligations.OperationsAreIdempotent := by
  intro i s t h
  obtain ⟨hsame, _, _, hib, _⟩ := operationFrame i s t h
  obtain ⟨_, hparams, _⟩ := hsame
  obtain ⟨x, out, _, hs, ht⟩ := exec_completeAlike (wellFormed_of_exec_next h) hparams fun a _ => hib a
  cases h.symm.trans hs
  exact ⟨_, ht, rfl, State.finish_finish_outputByte s x x out⟩

/-! ## Faults -/

/-- A command word never faults, reserved or not (60_exceptions.md R180, 30_encoding.md R76). -/
theorem State.runCommand_ne_fault (s : State) (r : Fault) : s.runCommand ≠ .fault r := by
  unfold State.runCommand
  split
  case h_1 i _ => exact exec_ne_fault i s r
  case h_2 => exact nofun

/-- A host write that faults reaches beyond `IB_CAP` (20_memory.md R60). -/
theorem State.hostWrite_fault {s : State} {a : Nat} {bytes : List Byte} {r : Fault}
    (h : s.hostWrite a bytes = .fault r) : ibCap s.params < a + bytes.length := by
  by_contra hfit
  cases h.symm.trans (State.hostWrite_of_fits (Nat.le_of_not_lt hfit))

/-- `IB` has room for all of `OB` (00_scope.md R9). -/
theorem obCap_le_ibCap (p : Config.Params) : obCap ≤ ibCap p := Nat.le_add_right _ _

@[simp] theorem State.outputBytes_length (s : State) (n : Nat) : (s.outputBytes n).length = n := by
  simp [State.outputBytes]

/-- A host copy of at most 1024 output bytes completes (30_encoding.md R86). -/
theorem State.hostCopyOutput_of_olen {s : State} (h : s.x.olen.toNat ≤ obCap) :
    s.hostCopyOutput = .next { s with ib := Memory.writeBytes s.ib 0 (s.outputBytes s.x.olen.toNat) } := by
  have hfit : 0 + (s.outputBytes s.x.olen.toNat).length ≤ ibCap s.params := by
    rw [State.outputBytes_length, Nat.zero_add]
    exact h.trans (obCap_le_ibCap s.params)
  exact (if_pos h).trans (State.hostWrite_of_fits hfit)

/-- A step that faults is one of the host's two accesses to a buffer (60_exceptions.md R180). -/
theorem step_fault {s : State} {r : Fault} (h : step s = .fault r) :
    (∃ a bytes rest, s.host = .writeInput a bytes :: rest ∧
      State.hostWrite { s with host := rest } a bytes = .fault r) ∨
    (∃ rest, s.host = .copyOutput :: rest ∧ State.hostCopyOutput { s with host := rest } = .fault r) := by
  unfold step at h
  split at h
  case h_1 => cases h
  case h_2 a bytes rest hs => exact .inl ⟨a, bytes, rest, hs, h⟩
  case h_3 rest hs => exact .inr ⟨rest, hs, h⟩
  case h_4 => exact absurd h (State.runCommand_ne_fault _ r)
  case h_5 => cases h

/-- Settles O43: a step that faults is a host write or a host copy, and under the invariant `OLEN` is at
most 1024, so the copy completes. -/
theorem onlyHostWritesFault : Obligations.OnlyHostWritesFault := by
  intro s r hinv h
  obtain ⟨_, ⟨_, holen, _⟩, _⟩ := hinv
  rcases step_fault h with ⟨a, bytes, rest, hs, hwrite⟩ | ⟨rest, _, hcopy⟩
  · exact ⟨a, bytes, rest, hs, State.hostWrite_fault (s := { s with host := rest }) hwrite⟩
  · cases hcopy.symm.trans (State.hostCopyOutput_of_olen (s := { s with host := rest }) holen)

end Sys2Proof.Machine
end

section
/-!
PROOFS. The command word: its fields, that decoding and encoding are inverse, the opcode table, which
words are refused, and the host's copy of the output (30_encoding.md R70 to R77, R86). The idea: a word is
its three fields, and three lemmas say once what the decoder answers to the code: `ARG` decides, every `ARG`
is an operand, or the code is reserved.
-/
namespace Sys2Proof

/-! ## The fields of the command word -/

@[simp] theorem cwOpc_commandWord (opc arg : Byte) (len : Half) : cwOpc (commandWord opc arg len) = opc := by
  apply BitVec.eq_of_getLsbD_eq
  intro i hi
  simp only [cwOpc, commandWord, BitVec.getLsbD_extractLsb', BitVec.getLsbD_append]
  rw [if_neg (by omega), if_neg (by omega)]
  simp [hi, show 24 + i - 16 - 8 = i by omega]

@[simp] theorem cwArg_commandWord (opc arg : Byte) (len : Half) : cwArg (commandWord opc arg len) = arg := by
  apply BitVec.eq_of_getLsbD_eq
  intro i hi
  simp only [cwArg, commandWord, BitVec.getLsbD_extractLsb', BitVec.getLsbD_append]
  rw [if_neg (by omega), if_pos (by omega)]
  simp [hi]

@[simp] theorem cwLen_commandWord (opc arg : Byte) (len : Half) : cwLen (commandWord opc arg len) = len := by
  apply BitVec.eq_of_getLsbD_eq
  intro i hi
  simp only [cwLen, commandWord, BitVec.getLsbD_extractLsb', BitVec.getLsbD_append]
  rw [if_pos (by omega)]
  simp [hi]

theorem cwOpc_toNat (w : Word) : (cwOpc w).toNat = w.toNat / 2 ^ 24 := by
  rw [cwOpc, BitVec.extractLsb'_toNat, Nat.shiftRight_eq_div_pow]
  have hw := w.isLt
  omega

theorem cwArg_toNat (w : Word) : (cwArg w).toNat = w.toNat / 2 ^ 16 % 256 := by
  rw [cwArg, BitVec.extractLsb'_toNat, Nat.shiftRight_eq_div_pow]

theorem cwLen_toNat (w : Word) : (cwLen w).toNat = w.toNat % 65536 := by
  rw [cwLen, BitVec.extractLsb'_toNat, Nat.shiftRight_zero]

/-- The command word as a number, in the form of R86. -/
theorem commandWord_toNat (opc arg : Byte) (len : Half) :
    (commandWord opc arg len).toNat = (opc.toNat <<< 24) ||| (arg.toNat <<< 16) ||| len.toNat := by
  rw [commandWord, BitVec.toNat_append, BitVec.toNat_append, Nat.shiftLeft_or_distrib, ← Nat.shiftLeft_add]

/-- The three fields are the whole word (30_encoding.md R70). -/
@[simp] theorem commandWord_fields (w : Word) : commandWord (cwOpc w) (cwArg w) (cwLen w) = w := by
  simp only [commandWord, cwOpc, cwArg, cwLen]
  rw [BitVec.extractLsb'_append_extractLsb'_eq_extractLsb' (by decide),
    BitVec.extractLsb'_append_extractLsb'_eq_extractLsb' (by decide)]
  exact BitVec.extractLsb'_eq_self

@[simp] theorem cwOpc_encode (i : Instr) : cwOpc (encode i) = i.opc := cwOpc_commandWord ..

@[simp] theorem cwArg_encode (i : Instr) : cwArg (encode i) = i.arg := cwArg_commandWord ..

@[simp] theorem cwLen_encode (i : Instr) : cwLen (encode i) = i.len := cwLen_commandWord ..

/-- Settles O7: each field is a quotient and a remainder of the word, and the word is their sum of shifts. -/
theorem commandWordFields : Obligations.CommandWordFields :=
  ⟨fun w => ⟨cwOpc_toNat w, cwArg_toNat w, cwLen_toNat w, commandWord_fields w⟩,
    fun i => ⟨cwOpc_encode i, cwArg_encode i, cwLen_encode i⟩,
    fun _ => commandWord_toNat ..⟩

/-- A word is an operation's word exactly when it has the operation's fields. -/
theorem eq_encode_iff (w : Word) (i : Instr) :
    w = encode i ↔ cwOpc w = i.opc ∧ cwArg w = i.arg ∧ cwLen w = i.len := by
  constructor
  · rintro rfl
    simp
  · rintro ⟨hopc, harg, hlen⟩
    rw [encode, ← hopc, ← harg, ← hlen, commandWord_fields]

/-! ## The decoder -/

theorem withoutArg_zero (opc : Byte) (i : Instr) : withoutArg opc 0 i = .ok i := rfl

theorem withoutArg_of_ne {arg : Byte} (h : arg ≠ 0) (opc : Byte) (i : Instr) :
    withoutArg opc arg i = .error (.argument opc arg) := if_neg h

theorem withoutArg_eq_ok {opc arg : Byte} {i j : Instr} (h : withoutArg opc arg i = .ok j) : arg = 0 ∧ i = j := by
  by_cases harg : arg = 0
  · subst harg
    exact ⟨rfl, Except.ok.inj h⟩
  · cases (withoutArg_of_ne harg opc i).symm.trans h

/-- An operation without `ARG` has the word's code and `LEN`, and whether the word decodes to it is left to
its `ARG` (30_encoding.md R77). -/
theorem decode_of_opc_withoutArg {w : Word} (h : cwOpc w ∈ ([0x01, 0x11, 0x20, 0x21] : List Byte)) :
    ∃ i : Instr, i.opc = cwOpc w ∧ i.arg = 0 ∧ i.len = cwLen w ∧ decode w = withoutArg (cwOpc w) (cwArg w) i := by
  simp only [List.mem_cons, List.not_mem_nil, or_false] at h
  rcases h with h | h | h | h
  · exact ⟨.crcCompute (cwLen w), h.symm, rfl, rfl, by simp [decode, h]⟩
  · exact ⟨.frameBuildSD (cwLen w), h.symm, rfl, rfl, by simp [decode, h]⟩
  · exact ⟨.frameDecodeLP (cwLen w), h.symm, rfl, rfl, by simp [decode, h]⟩
  · exact ⟨.frameDecodeSD (cwLen w), h.symm, rfl, rfl, by simp [decode, h]⟩

/-- Code 10 takes every `ARG` and every `LEN` (30_encoding.md R74, R77). -/
theorem decode_of_opc_frameBuildLP {w : Word} (h : cwOpc w = 0x10) :
    decode w = .ok (.frameBuildLP (cwArg w) (cwLen w)) := by
  simp [decode, h]

/-- Every other code is reserved (30_encoding.md R76). -/
theorem decode_of_opc_reserved {w : Word} (h : cwOpc w ∉ ([0x01, 0x10, 0x11, 0x20, 0x21] : List Byte)) :
    decode w = .error (.opcode (cwOpc w)) := by
  simp only [List.mem_cons, List.not_mem_nil, or_false, not_or] at h
  obtain ⟨h01, h10, h11, h20, h21⟩ := h
  simp only [decode, h01, h10, h11, h20, h21, if_false]

/-- An operation that a word decodes to has the word's fields. -/
theorem fields_of_decode {w : Word} {i : Instr} (h : decode w = .ok i) :
    cwOpc w = i.opc ∧ cwArg w = i.arg ∧ cwLen w = i.len := by
  by_cases hdef : cwOpc w ∈ ([0x01, 0x10, 0x11, 0x20, 0x21] : List Byte)
  · by_cases hlp : cwOpc w = 0x10
    · cases (decode_of_opc_frameBuildLP hlp).symm.trans h
      exact ⟨hlp, rfl, rfl⟩
    · have hcode : cwOpc w ∈ ([0x01, 0x11, 0x20, 0x21] : List Byte) := by
        simpa only [List.mem_cons, hlp, false_or] using hdef
      obtain ⟨j, hopc, harg, hlen, hdec⟩ := decode_of_opc_withoutArg hcode
      obtain ⟨hzero, rfl⟩ := withoutArg_eq_ok (hdec.symm.trans h)
      exact ⟨hopc.symm, hzero.trans harg.symm, hlen.symm⟩
  · cases (decode_of_opc_reserved hdef).symm.trans h

/-- The decoder gives an encoded operation back, with every operand at every value. -/
theorem decode_encode (i : Instr) : decode (encode i) = .ok i := by
  cases i with
  | frameBuildLP cmd n => simp [decode, Instr.opc, Instr.arg, Instr.len]
  | crcCompute n => simp [decode, withoutArg, Instr.opc, Instr.arg, Instr.len]
  | frameBuildSD n => simp [decode, withoutArg, Instr.opc, Instr.arg, Instr.len]
  | frameDecodeLP n => simp [decode, withoutArg, Instr.opc, Instr.arg, Instr.len]
  | frameDecodeSD n => simp [decode, withoutArg, Instr.opc, Instr.arg, Instr.len]

/-- Settles O8: a decoded operation has the word's three fields, which are the whole word, and an encoded
operation decodes to itself. -/
theorem decodeEncodeAgree : Obligations.DecodeEncodeAgree := by
  intro w i
  constructor
  · exact fun h => (eq_encode_iff w i).mpr (fields_of_decode h)
  · rintro rfl
    exact decode_encode i

/-- Settles O12: seven closed words, evaluated. -/
theorem commandWordSamples : Obligations.CommandWordSamples := by
  unfold Obligations.CommandWordSamples
  decide

/-! ## The opcode table -/

/-- The word of every operation is described by the row with its mnemonic (30_encoding.md R75). -/
theorem encode_matches_row (i : Instr) : Laws.MatchesTable.Statement i := by
  cases i with
  | crcCompute n => exact Laws.MatchesTable.crcCompute n
  | frameBuildLP cmd n => exact Laws.MatchesTable.frameBuildLP cmd n
  | frameBuildSD n => exact Laws.MatchesTable.frameBuildSD n
  | frameDecodeLP n => exact Laws.MatchesTable.frameDecodeLP n
  | frameDecodeSD n => exact Laws.MatchesTable.frameDecodeSD n

/-- No two rows of the opcode table have one mnemonic. -/
theorem opcodeTable_mnemonic_inj :
    ∀ row ∈ opcodeTable, ∀ row' ∈ opcodeTable, row.mnemonic = row'.mnemonic → row = row' := by
  decide

/-- A mask over code and `ARG` fixes both fields. -/
theorem fields_of_mask_len {w bits : Word} (h : w &&& 0xFFFF0000 = bits) :
    cwOpc w = cwOpc bits ∧ cwArg w = cwArg bits := by
  rw [← commandWord_fields w, Laws.MatchesTable.mask_len] at h
  subst h
  simp

/-- A mask over the code alone fixes the code. -/
theorem cwOpc_of_mask_arg_len {w bits : Word} (h : w &&& 0xFF000000 = bits) : cwOpc w = cwOpc bits := by
  rw [← commandWord_fields w, Laws.MatchesTable.mask_arg_len] at h
  subst h
  simp

/-- A word that a row describes is the word of an operation with the row's mnemonic. -/
theorem exists_encode_of_row {w : Word} {row : OpcodeRow} (hrow : row ∈ opcodeTable)
    (h : w &&& row.mask = row.bits) : ∃ i : Instr, w = encode i ∧ i.mnemonic = row.mnemonic := by
  simp only [opcodeTable, List.mem_cons, List.not_mem_nil, or_false] at hrow
  rcases hrow with rfl | rfl | rfl | rfl | rfl
  · obtain ⟨hopc, harg⟩ := fields_of_mask_len h
    exact ⟨.crcCompute (cwLen w), (eq_encode_iff ..).mpr ⟨hopc, harg, rfl⟩, rfl⟩
  · exact ⟨.frameBuildLP (cwArg w) (cwLen w), (eq_encode_iff ..).mpr ⟨cwOpc_of_mask_arg_len h, rfl, rfl⟩, rfl⟩
  · obtain ⟨hopc, harg⟩ := fields_of_mask_len h
    exact ⟨.frameBuildSD (cwLen w), (eq_encode_iff ..).mpr ⟨hopc, harg, rfl⟩, rfl⟩
  · obtain ⟨hopc, harg⟩ := fields_of_mask_len h
    exact ⟨.frameDecodeLP (cwLen w), (eq_encode_iff ..).mpr ⟨hopc, harg, rfl⟩, rfl⟩
  · obtain ⟨hopc, harg⟩ := fields_of_mask_len h
    exact ⟨.frameDecodeSD (cwLen w), (eq_encode_iff ..).mpr ⟨hopc, harg, rfl⟩, rfl⟩

/-- A word decodes to the operation of a row exactly when it has the row's match under its mask. -/
theorem row_describes_iff_decode (w : Word) {row : OpcodeRow} (hrow : row ∈ opcodeTable) :
    w &&& row.mask = row.bits ↔ ∃ i, decode w = .ok i ∧ i.mnemonic = row.mnemonic := by
  constructor
  · intro h
    obtain ⟨i, rfl, hname⟩ := exists_encode_of_row hrow h
    exact ⟨i, decode_encode i, hname⟩
  · rintro ⟨i, hdec, hname⟩
    obtain ⟨row', hrow', hname', hbits⟩ := encode_matches_row i
    rw [(decodeEncodeAgree w i).mp hdec, opcodeTable_mnemonic_inj row hrow row' hrow' (hname'.trans hname).symm]
    exact hbits

/-- Settles O9: the rows decide by `row_describes_iff_decode`; the codes are those of the encoder. -/
theorem opcodeTableDecides : Obligations.OpcodeTableDecides := by
  refine ⟨fun w _ hrow => row_describes_iff_decode w hrow, fun _ => cwOpc_encode _, fun _ _ => cwOpc_encode _,
    fun _ => cwOpc_encode _, fun _ => cwOpc_encode _, fun _ => cwOpc_encode _, fun i => ?_,
    fun _ _ => by simp [Instr.opc]⟩
  cases i <;> simp [Instr.opc]

end Sys2Proof

namespace Sys2Proof.Machine

/-! ## Reserved words -/

/-- A pending write of `CW` with a reserved word is refused (30_encoding.md R76, R77). -/
theorem step_of_issue_reserved {s : State} {w : Word} {rest : List HostAction} {r : Reserved}
    (hs : s.host = .issue w :: rest) (hdec : decode w = .error r) : step s = .refused (reservedRefusal r) := by
  rw [step_of_issue hs]
  simp only [State.runCommand, State.latchCommand_cw, hdec]

/-- Settles O10: a reserved code does not decode, so its issue from the host's list (log entry 1) is refused. -/
theorem reservedOpcodesRefused : Obligations.ReservedOpcodesRefused :=
  fun _ _ _ hs hopc => step_of_issue_reserved hs (decode_of_opc_reserved hopc)

/-- Settles O11: where `ARG` is unused the decoder answers by `ARG` alone, and a word that does not decode is
refused when the host's list issues it (log entry 1). -/
theorem reservedArgumentsRefused : Obligations.ReservedArgumentsRefused := by
  refine ⟨fun s w rest hs hopc harg => ?_, fun w hopc harg => ?_, fun w => decode_of_opc_frameBuildLP⟩
  · obtain ⟨i, _, _, _, hdec⟩ := decode_of_opc_withoutArg hopc
    exact step_of_issue_reserved hs (hdec.trans (withoutArg_of_ne harg _ i))
  · obtain ⟨i, hcode, _, hlen, hdec⟩ := decode_of_opc_withoutArg hopc
    rw [harg, withoutArg_zero] at hdec
    exact ⟨i, hdec, hcode, hlen⟩

/-! ## The host's copy of the output -/

/-- A pending host copy of the output is the next step (30_encoding.md R86). -/
theorem step_of_copyOutput {s : State} {rest : List HostAction} (hs : s.host = .copyOutput :: rest) :
    step s = State.hostCopyOutput { s with host := rest } := by
  simp only [step, hs]

@[simp] theorem State.outputBytes_getElem (s : State) (n i : Nat) (h : i < (s.outputBytes n).length) :
    (s.outputBytes n)[i] = s.outputByte i := by
  simp [State.outputBytes]

/-- What `IB` reads as once the first bytes of `OB` are written to its start (30_encoding.md R86). -/
theorem State.inputByte_writeOutputBytes (s : State) (n k : Nat) :
    State.inputByte { s with ib := Memory.writeBytes s.ib 0 (s.outputBytes n) } k =
      if k < n then s.outputByte k else s.inputByte k := by
  simp [State.inputByte_writeBytes]

/-- Settles O15: the step is the host's copy (log entry 1), which fits `IB` and touches `IB` only. -/
theorem hostCopyMovesOutput : Obligations.HostCopyMovesOutput := by
  intro s rest hs holen
  have hstep := (step_of_copyOutput hs).trans (State.hostCopyOutput_of_olen (s := { s with host := rest }) holen)
  exact ⟨_, hstep, State.inputByte_writeOutputBytes { s with host := rest } s.x.olen.toNat, rfl, rfl, rfl, rfl, rfl,
    rfl, rfl, rfl, rfl⟩

end Sys2Proof.Machine
end

section
/-!
PROOFS. The Checksum Engine (40_crc.md R92 to R97) and the domain of every operation. The ideas:
- The byte step's forms and the residue law rest on `crcShift_iterate_xor`: eight shifts of `r ^^^ v` take in
  the upper byte of `v` as message bits and leave its lower byte shifted out.
- The checksum is a remainder because one bit step is one step of the long division by G, whose quotient
  bits are the feedback bits of the register (`crcQuotient`).
- An odd number of flipped bits is detected because G has an even number of terms: every body with its
  trailer has an even number of 1 bits (`bitWeight_withTrailer`).
-/
namespace Sys2Proof.Machine

/-! ## The bit step -/

theorem toNat_shiftRight_fifteen (r : Half) : r.toNat >>> 15 = (r.getLsbD 15).toNat := by
  have hr := r.isLt
  rw [BitVec.getLsbD, Nat.testBit_eq_decide_div_mod_eq, Nat.shiftRight_eq_div_pow]
  have htop : r.toNat / 2 ^ 15 < 2 := by omega
  interval_cases r.toNat / 2 ^ 15 <;> rfl

theorem toNat_crcBit (r : Half) (b : Bool) :
    (crcBit r b).toNat = (r.toNat <<< 1 &&& 0xFFFF) ^^^ if r.getLsbD 15 ^^ b then 0x8005 else 0 := by
  have hshift : (r <<< 1).toNat = r.toNat <<< 1 &&& 0xFFFF := by
    rw [BitVec.toNat_shiftLeft, ← Nat.and_two_pow_sub_one_eq_mod]
  unfold crcBit
  split
  case isTrue => rw [BitVec.toNat_xor, hshift]; rfl
  case isFalse => rw [hshift, Nat.xor_zero]

theorem toNat_xor_toNat_eq_one (a b : Bool) : a.toNat ^^^ b.toNat = 1 ↔ (a ^^ b) = true := by
  cases a <;> cases b <;> decide

/-- Settles O1: the rule's condition on numbers is the feedback bit of `crcBit`. -/
theorem crcBitStepArithmetic : Obligations.CrcBitStepArithmetic := by
  intro r b
  simp only [toNat_shiftRight_fifteen, toNat_xor_toNat_eq_one, toNat_crcBit]
  split
  case isTrue => rfl
  case isFalse => exact Nat.xor_zero _

/-! ## The bytes of a register value -/

theorem hi8_xor (v w : Half) : hi8 (v ^^^ w) = hi8 v ^^^ hi8 w := BitVec.extractLsb'_xor

theorem lo8_xor (v w : Half) : lo8 (v ^^^ w) = lo8 v ^^^ lo8 w := BitVec.extractLsb'_xor

theorem hi8_eq_shiftRight (v : Half) : hi8 v = (v >>> 8).setWidth 8 := by
  ext i hi
  simp [hi8]

theorem hi8_shiftLeft (v : Half) : hi8 (v <<< 8) = lo8 v := by
  apply BitVec.eq_of_getLsbD_eq
  intro i hi
  have hi16 : 8 + i < 16 := by omega
  simp only [hi8, lo8, BitVec.getLsbD_extractLsb', BitVec.getLsbD_shiftLeft]
  simp [hi, hi16]

theorem hi8_setWidth_shiftLeft (x : Byte) : hi8 (x.setWidth 16 <<< 8) = x := by
  rw [hi8_shiftLeft]
  ext i hi
  simp [lo8, hi, Nat.lt_trans hi (by decide : 8 < 16)]

theorem shiftLeft_eight_eight (v : Half) : v <<< 8 <<< 8 = 0 := by
  rw [← BitVec.shiftLeft_add]
  exact BitVec.shiftLeft_eq_zero (by decide)

/-! ## The byte step -/

/-- A shift takes the top bit of `v` in as a message bit and moves the rest of `v` up (40_crc.md R93). -/
theorem crcShift_xor (r v : Half) : crcShift (r ^^^ v) = crcBit r (v.getLsbD 15) ^^^ v <<< 1 := by
  simp only [crcShift, crcBit, BitVec.getLsbD_xor, BitVec.shiftLeft_xor_distrib]
  split
  case isTrue => ac_rfl
  case isFalse => exact BitVec.xor_zero

/-- Eight shifts take the upper byte of `v` in as a message byte and move its lower byte up. -/
theorem crcShift_iterate_xor (r v : Half) : crcShift^[8] (r ^^^ v) = crcByte r (hi8 v) ^^^ v <<< 8 := by
  simp only [Function.iterate_succ_apply, Function.iterate_zero_apply, crcShift_xor]
  simp [crcByte, byteBits, hi8, ← BitVec.shiftLeft_add]

theorem crcByteShift_eq_iterate (r : Half) (x : Byte) :
    crcByteShift r x = crcShift^[8] (r ^^^ x.setWidth 16 <<< 8) := rfl

theorem crcByteShift_eq_crcByte (r : Half) (x : Byte) : crcByteShift r x = crcByte r x := by
  rw [crcByteShift_eq_iterate, crcShift_iterate_xor, hi8_setWidth_shiftLeft, shiftLeft_eight_eight]
  exact BitVec.xor_zero

/-- Settles O2: in the second form the message byte fills the upper byte and nothing is below it. -/
theorem crcByteFormsAgree : Obligations.CrcByteFormsAgree :=
  fun r x => ⟨rfl, crcByteShift_eq_crcByte r x⟩

/-- The table is indexed by all that stands in the upper byte; the lower byte of `r` only moves up. -/
theorem crcByteTable_eq_crcByte (r : Half) (x : Byte) : crcByteTable r x = crcByte r x := by
  have hhi : hi8 (r ^^^ x.setWidth 16 <<< 8) = (r >>> 8).setWidth 8 ^^^ x := by
    rw [hi8_xor, hi8_setWidth_shiftLeft, hi8_eq_shiftRight]
  have hlow : (r ^^^ x.setWidth 16 <<< 8) <<< 8 = r <<< 8 := by
    rw [BitVec.shiftLeft_xor_distrib, shiftLeft_eight_eight]
    exact BitVec.xor_zero
  calc crcByteTable r x
      = crcByte 0 (hi8 (r ^^^ x.setWidth 16 <<< 8)) ^^^ (r ^^^ x.setWidth 16 <<< 8) <<< 8 := by
        rw [hhi, hlow]
        exact BitVec.xor_comm ..
    _ = crcShift^[8] (0 ^^^ (r ^^^ x.setWidth 16 <<< 8)) := (crcShift_iterate_xor ..).symm
    _ = crcByteShift r x := congrArg _ BitVec.zero_xor
    _ = crcByte r x := crcByteShift_eq_crcByte r x

/-- Settles O3: the table form for every operand, and the listed entries by evaluation. -/
theorem crcTableFormAgrees : Obligations.CrcTableFormAgrees :=
  ⟨crcByteTable_eq_crcByte, by decide, by decide, by decide, by decide⟩

/-! ## The residue law -/

/-- A register that is fed its own upper byte cancels it. -/
theorem crcByte_hi8_self (r : Half) : crcByte r (hi8 r) = r <<< 8 := by
  have h := crcShift_iterate_xor r r
  rw [BitVec.xor_self] at h
  have hzero : crcShift^[8] 0 = 0 := by decide
  exact BitVec.xor_eq_zero_iff.mp (h.symm.trans hzero)

theorem crcFold_be16Bytes_self (r : Half) : crcFold r (be16Bytes r) = 0 := by
  calc crcFold r (be16Bytes r)
      = crcByte (crcByte r (hi8 r)) (lo8 r) := rfl
    _ = crcByte (r <<< 8) (hi8 (r <<< 8)) := by rw [crcByte_hi8_self, hi8_shiftLeft]
    _ = 0 := by rw [crcByte_hi8_self, shiftLeft_eight_eight]

/-- Settles O5: after the body the register is fed its own two bytes. -/
theorem crc16ResidueIsZero : Obligations.Crc16ResidueIsZero :=
  fun bs => (crcFold_append crcInit bs _).trans (crcFold_be16Bytes_self (crc16 bs))

/-! ## The message as one bit sequence -/

theorem crcFold_eq_foldl_crcBit (r : Half) (bs : List Byte) :
    crcFold r bs = (bs.flatMap byteBits).foldl crcBit r := by
  induction bs generalizing r with
  | nil => rfl
  | cons b bs ih => rw [List.flatMap_cons, List.foldl_append, crcFold_cons, ih]; rfl

theorem flatMap_byteBits_length (bs : List Byte) : (bs.flatMap byteBits).length = 8 * bs.length := by
  simp [List.length_flatMap, byteBits, Nat.mul_comm]

/-! ## The checksum as a remainder -/

/-- The upper and the lower part of a number, put together without carries. -/
theorem shiftRight_shiftLeft_xor_mod (m k : Nat) : m >>> k <<< k ^^^ m % 2 ^ k = m := by
  apply Nat.eq_of_testBit_eq
  intro i
  simp only [Nat.testBit_xor, Nat.testBit_shiftLeft, Nat.testBit_shiftRight, Nat.testBit_mod_two_pow]
  by_cases h : i < k
  · simp [h, Nat.not_le_of_lt h]
  · simp [h, Nat.le_of_not_lt h]

theorem two_mul_add_toNat (v : Nat) (b : Bool) : 2 * v + b.toNat = v <<< 1 ^^^ b.toNat := by
  have h := shiftRight_shiftLeft_xor_mod (2 * v + b.toNat) 1
  have hb := b.toNat_le
  have hhigh : (2 * v + b.toNat) >>> 1 = v := by rw [Nat.shiftRight_one]; omega
  have hlow : (2 * v + b.toNat) % 2 ^ 1 = b.toNat := by omega
  rw [hhigh, hlow] at h
  exact h.symm

/-- `bitsToNat` from a given value on. -/
theorem foldl_two_mul_add_toNat (v : Nat) (bits : List Bool) :
    bits.foldl (fun v b => 2 * v + b.toNat) v = v <<< bits.length ^^^ bitsToNat bits := by
  induction bits generalizing v with
  | nil => simp [bitsToNat]
  | cons b bits ih =>
    rw [bitsToNat, List.foldl_cons, List.foldl_cons, ih, ih, two_mul_add_toNat, two_mul_add_toNat]
    simp [Nat.shiftLeft_xor_distrib, ← Nat.shiftLeft_add, Nat.xor_assoc, Nat.add_comm]

theorem bitsToNat_cons (b : Bool) (bits : List Bool) :
    bitsToNat (b :: bits) = b.toNat <<< bits.length ^^^ bitsToNat bits := by
  rw [bitsToNat, List.foldl_cons, foldl_two_mul_add_toNat, Nat.mul_zero, Nat.zero_add]

/-- The quotient of the division by G: the feedback bits of the register, in order (40_crc.md R92). -/
def crcQuotient (r : Half) : List Bool → List Bool
  | [] => []
  | b :: bits => (r.getLsbD 15 ^^ b) :: crcQuotient (crcBit r b) bits

@[simp] theorem crcQuotient_length (r : Half) (bits : List Bool) : (crcQuotient r bits).length = bits.length := by
  induction bits generalizing r with
  | nil => rfl
  | cons b bits ih => simp [crcQuotient, ih]

/-- A shifted register value is its top bit, as the coefficient of x^16, and its other bits. -/
theorem toNat_shiftLeft_one (r : Half) :
    r.toNat <<< 1 = (r.getLsbD 15).toNat <<< 16 ^^^ (r.toNat <<< 1 &&& 0xFFFF) := by
  have hmask : r.toNat <<< 1 &&& 0xFFFF = r.toNat <<< 1 % 2 ^ 16 := Nat.and_two_pow_sub_one_eq_mod _ 16
  have htop : r.toNat <<< 1 >>> 16 = r.toNat >>> 15 := by
    rw [Nat.shiftRight_add _ 1 15, Nat.shiftLeft_shiftRight]
  rw [hmask, ← toNat_shiftRight_fifteen, ← htop, shiftRight_shiftLeft_xor_mod]

/-- Subtracting G or nothing clears the coefficient of x^16 (40_crc.md R91). -/
theorem feedback_eq_poly_xor (a b : Bool) :
    a.toNat <<< 16 ^^^ b.toNat <<< 16 = (if a ^^ b then 0x18005 else 0) ^^^ if a ^^ b then 0x8005 else 0 := by
  cases a <;> cases b <;> decide

/-- One bit step is one step of the long division by G. -/
theorem crcBit_division (r : Half) (b : Bool) :
    r.toNat <<< 1 ^^^ b.toNat <<< 16 = (if r.getLsbD 15 ^^ b then 0x18005 else 0) ^^^ (crcBit r b).toNat := by
  have hshift := toNat_shiftLeft_one r
  rw [toNat_crcBit]
  generalize r.toNat <<< 1 &&& 0xFFFF = low at hshift ⊢
  rw [hshift, Nat.xor_right_comm, feedback_eq_poly_xor, Nat.xor_assoc, Nat.xor_comm low]

theorem foldl_crcBit_division (r : Half) (bits : List Bool) :
    r.toNat <<< bits.length ^^^ bitsToNat bits <<< 16 =
      clmulBits 0x18005 (crcQuotient r bits) ^^^ (bits.foldl crcBit r).toNat := by
  induction bits generalizing r with
  | nil => simp [bitsToNat, crcQuotient, clmulBits]
  | cons b bits ih =>
    calc r.toNat <<< (bits.length + 1) ^^^ bitsToNat (b :: bits) <<< 16
        = (r.toNat <<< 1 ^^^ b.toNat <<< 16) <<< bits.length ^^^ bitsToNat bits <<< 16 := by
          simp only [bitsToNat_cons, Nat.shiftLeft_xor_distrib, ← Nat.shiftLeft_add, Nat.add_comm, Nat.xor_assoc]
      _ = (if r.getLsbD 15 ^^ b then 0x18005 else 0) <<< bits.length ^^^
            ((crcBit r b).toNat <<< bits.length ^^^ bitsToNat bits <<< 16) := by
          rw [crcBit_division, Nat.shiftLeft_xor_distrib, Nat.xor_assoc]
      _ = clmulBits 0x18005 (crcQuotient r (b :: bits)) ^^^ ((b :: bits).foldl crcBit r).toNat := by
          rw [ih, ← Nat.xor_assoc]
          simp only [crcQuotient, clmulBits, crcQuotient_length, List.foldl_cons, apply_ite (· <<< bits.length),
            Nat.zero_shiftLeft]

/-- Settles O4: the quotient is the sequence of feedback bits of the whole message. -/
theorem crc16IsPolynomialRemainder : Obligations.Crc16IsPolynomialRemainder := by
  intro bs
  refine ⟨crcQuotient crcInit (bs.flatMap byteBits), ?_⟩
  rw [← flatMap_byteBits_length, crc16, crcFold_eq_foldl_crcBit]
  exact foldl_crcBit_division crcInit _

/-! ## The number of 1 bits -/

/-- The number of 1 bits of a byte sequence. -/
def bitWeight (bs : List Byte) : Nat := (bs.flatMap byteBits).count true

theorem bitWeight_append (xs ys : List Byte) : bitWeight (xs ++ ys) = bitWeight xs + bitWeight ys := by
  rw [bitWeight, List.flatMap_append, List.count_append, bitWeight, bitWeight]

theorem bitWeight_cons (x : Byte) (xs : List Byte) : bitWeight (x :: xs) = popcount x + bitWeight xs :=
  List.count_append

theorem bitWeight_be16Bytes (v : Half) : bitWeight (be16Bytes v) = popcount (hi8 v) + popcount (lo8 v) := by
  rw [be16Bytes, bitWeight_cons, bitWeight_cons]
  rfl

theorem count_cons_true (b : Bool) (bits : List Bool) : (b :: bits).count true = b.toNat + bits.count true := by
  cases b <;> simp [Nat.add_comm]

theorem toNat_xor_mod_two (a b : Bool) : (a ^^ b).toNat % 2 = (a.toNat + b.toNat) % 2 := by
  cases a <;> cases b <;> rfl

theorem count_zipWith_xor {as bs : List Bool} (h : bs.length = as.length) :
    (List.zipWith xor as bs).count true % 2 = (as.count true + bs.count true) % 2 := by
  induction as generalizing bs with
  | nil => rw [List.eq_nil_of_length_eq_zero h]; rfl
  | cons a as ih =>
    cases bs with
    | nil => cases h
    | cons b bs =>
      have hbit := toNat_xor_mod_two a b
      have hrest := ih (Nat.succ_inj.mp h)
      simp only [List.zipWith_cons_cons, count_cons_true]
      omega

theorem popcount_xor (x y : Byte) : popcount (x ^^^ y) % 2 = (popcount x + popcount y) % 2 := by
  have hbits : byteBits (x ^^^ y) = List.zipWith xor (byteBits x) (byteBits y) := by simp [byteBits]
  rw [popcount, hbits]
  exact count_zipWith_xor rfl

theorem bitDistance_mod_two {xs ys : List Byte} (h : ys.length = xs.length) :
    bitDistance xs ys % 2 = (bitWeight xs + bitWeight ys) % 2 := by
  induction xs generalizing ys with
  | nil => rw [List.eq_nil_of_length_eq_zero h]; rfl
  | cons x xs ih =>
    cases ys with
    | nil => cases h
    | cons y ys =>
      have hcons : bitDistance (x :: xs) (y :: ys) = popcount (x ^^^ y) + bitDistance xs ys := rfl
      have hbyte := popcount_xor x y
      have hrest := ih (Nat.succ_inj.mp h)
      rw [bitWeight_cons, bitWeight_cons, hcons]
      omega

/-! ## The parity of the register -/

theorem bitWeight_be16Bytes_xor (v w : Half) :
    bitWeight (be16Bytes (v ^^^ w)) % 2 = (bitWeight (be16Bytes v) + bitWeight (be16Bytes w)) % 2 := by
  have hhi := popcount_xor (hi8 v) (hi8 w)
  have hlo := popcount_xor (lo8 v) (lo8 w)
  simp only [bitWeight_be16Bytes, hi8_xor, lo8_xor]
  omega

theorem flatMap_byteBits_be16Bytes (v : Half) :
    (be16Bytes v).flatMap byteBits = ((List.range 16).map v.getLsbD).reverse := by
  simp [be16Bytes, byteBits, hi8, lo8, List.range_succ]

/-- A shift by one loses the top bit and no other. -/
theorem bitWeight_be16Bytes_shiftLeft (r : Half) :
    bitWeight (be16Bytes (r <<< 1)) + (r.getLsbD 15).toNat = bitWeight (be16Bytes r) := by
  have hshift : (List.range 16).map (r <<< 1).getLsbD = false :: (List.range 15).map r.getLsbD := by
    simp [List.range_succ]
  have htop : (List.range 16).map r.getLsbD = (List.range 15).map r.getLsbD ++ [r.getLsbD 15] := by
    rw [List.range_succ, List.map_append]
    rfl
  simp only [bitWeight, flatMap_byteBits_be16Bytes, hshift, htop, List.count_reverse, List.count_append,
    count_cons_true, List.count_nil, Bool.toNat_false]
  omega

/-- A bit step changes the parity of the register by the message bit, as G has an even number of terms. -/
theorem bitWeight_crcBit (r : Half) (b : Bool) :
    bitWeight (be16Bytes (crcBit r b)) % 2 = (bitWeight (be16Bytes r) + b.toNat) % 2 := by
  have hpoly : bitWeight (be16Bytes crcPoly) = 3 := by decide
  have hxor := bitWeight_be16Bytes_xor (r <<< 1) crcPoly
  have hshift := bitWeight_be16Bytes_shiftLeft r
  have hfeedback := toNat_xor_mod_two (r.getLsbD 15) b
  unfold crcBit
  split
  case isTrue hfb =>
    rw [hfb, Bool.toNat_true] at hfeedback
    omega
  case isFalse hfb =>
    rw [Bool.eq_false_of_not_eq_true hfb, Bool.toNat_false] at hfeedback
    omega

theorem bitWeight_foldl_crcBit (r : Half) (bits : List Bool) :
    bitWeight (be16Bytes (bits.foldl crcBit r)) % 2 = (bitWeight (be16Bytes r) + bits.count true) % 2 := by
  induction bits generalizing r with
  | nil => rfl
  | cons b bits ih =>
    have hstep := bitWeight_crcBit r b
    rw [List.foldl_cons, ih, count_cons_true]
    omega

theorem bitWeight_crc16 (bs : List Byte) : bitWeight (be16Bytes (crc16 bs)) % 2 = bitWeight bs % 2 := by
  have hinit : bitWeight (be16Bytes crcInit) = 4 := by decide
  rw [crc16, crcFold_eq_foldl_crcBit, bitWeight_foldl_crcBit, hinit, bitWeight]
  omega

/-- A body with its trailer has an even number of 1 bits. -/
theorem bitWeight_withTrailer (bs : List Byte) : bitWeight (withTrailer bs) % 2 = 0 := by
  have hcrc := bitWeight_crc16 bs
  rw [withTrailer, bitWeight_append]
  omega

/-! ## Flipped bits -/

/-- The checksum is not the same after an odd number of flips in the body (40_crc.md R96 d). -/
theorem crc16_ne_of_odd_bitDistance {bs cs : List Byte} (hlen : cs.length = bs.length)
    (h : bitDistance bs cs % 2 = 1) : crc16 cs ≠ crc16 bs := by
  intro heq
  have hbs := bitWeight_crc16 bs
  have hcs := bitWeight_crc16 cs
  rw [bitDistance_mod_two hlen] at h
  rw [heq] at hcs
  omega

/-- No trailer an odd number of flips away is the right one (40_crc.md R96 d). -/
theorem trailer_ne_of_odd_bitDistance {bs cs : List Byte} {t : Half} (hlen : cs.length = bs.length)
    (h : bitDistance (withTrailer bs) (cs ++ be16Bytes t) % 2 = 1) : t ≠ crc16 cs := by
  rintro rfl
  change bitDistance (withTrailer bs) (withTrailer cs) % 2 = 1 at h
  rw [bitDistance_mod_two (by simp [hlen])] at h
  have hbs := bitWeight_withTrailer bs
  have hcs := bitWeight_withTrailer cs
  omega

/-- Settles O6: one flip is an odd number of flips, and an odd number changes a parity that both share. -/
theorem oddBitFlipsChangeTheChecksum : Obligations.OddBitFlipsChangeTheChecksum :=
  ⟨fun _ _ hlen h => crc16_ne_of_odd_bitDistance hlen (by rw [h]), fun _ _ _ => trailer_ne_of_odd_bitDistance⟩

/-! ## The operations -/

/-- Settles O28, from the completion, the refusal and the absence of faults of every operation. -/
theorem operationsCompleteExactlyInDomain : Obligations.OperationsCompleteExactlyInDomain :=
  fun i s => ⟨exec_completes, exec_refused, exec_ne_fault i s⟩

theorem exec_crcCompute_of_le {n : Half} {s : State} (h : n.toNat ≤ ibCap s.params) :
    exec (.crcCompute n) s = .next (s.succeed { out := [], comp := crc16 (s.input n.toNat) }) := if_pos h

theorem exec_crcCompute_of_lt {n : Half} {s : State} (h : ibCap s.params < n.toNat) :
    exec (.crcCompute n) s = .refused (.lengthBeyondInputBuffer n) := if_neg (Nat.not_le_of_lt h)

/-- Settles O18: a success with no output, and the samples by evaluation. -/
theorem crcComputeEffect : Obligations.CrcComputeEffect := by
  refine ⟨fun n s => ⟨fun hn => ?_, exec_crcCompute_of_lt⟩, fun n => rfl, rfl, rfl, by decide +kernel⟩
  exact ⟨_, exec_crcCompute_of_le hn, ⟨rfl, rfl, rfl, rfl, rfl, rfl⟩, rfl, fun a => rfl⟩

end Sys2Proof.Machine
end

section
/-!
PROOFS. The two builds (41_frame_build.md R112, R116). The idea: both succeed through
`State.deliverFrame`, so what `OB` and the registers hold after it is said once, for any body, and each
build's frame is read off the body it delivers.
-/
namespace Sys2Proof.Machine

/-! ## Delivering a frame -/

section DeliverFrame
variable (s : State) {body : List Byte} {a : Nat}

@[simp] theorem State.deliverFrame_x (body : List Byte) :
    (s.deliverFrame body).x =
      ⟨0, BitVec.ofNat 32 (body.length + 2), (crc16 body).setWidth 32, 0, 0, 0, 0, 0⟩ := by
  rw [← withTrailer_length]
  rfl

theorem State.deliverFrame_outputByte (body : List Byte) (a : Nat) :
    (s.deliverFrame body).outputByte a =
      if h : a < (withTrailer body).length then (withTrailer body)[a] else s.outputByte a :=
  State.finish_outputByte ..

theorem State.deliverFrame_outputByte_body (ha : a < body.length) :
    (s.deliverFrame body).outputByte a = body[a] := by
  have hlt : a < (withTrailer body).length := by rw [withTrailer_length]; omega
  rw [State.deliverFrame_outputByte, dif_pos hlt]
  exact List.getElem_append_left ha

/-- Behind the body stands its checksum, the more significant byte first (30_encoding.md R80, R81). -/
theorem State.deliverFrame_outputByte_trailer (ha : a = body.length) :
    (s.deliverFrame body).outputByte a = hi8 (crc16 body) ∧
      (s.deliverFrame body).outputByte (a + 1) = lo8 (crc16 body) := by
  subst ha
  simp [State.deliverFrame_outputByte, withTrailer, be16Bytes]

theorem State.deliverFrame_outputByte_beyond (ha : body.length + 2 ≤ a) :
    (s.deliverFrame body).outputByte a = s.outputByte a := by
  rw [State.deliverFrame_outputByte, dif_neg (by rw [withTrailer_length]; omega)]

end DeliverFrame

/-! ## FRAME.BUILD.SD -/

theorem exec_frameBuildSD_of_lt {n : Half} {s : State} (h : 1022 < n.toNat) :
    exec (.frameBuildSD n) s = .next (s.raise .oversizeFrame .noCause 1024 (n.toNat + 2) none) :=
  if_pos (Nat.add_lt_add_right h 2)

theorem exec_frameBuildSD_of_le {n : Half} {s : State} (h : n.toNat ≤ 1022) :
    exec (.frameBuildSD n) s = .next (s.deliverFrame (s.input n.toNat)) :=
  if_neg (Nat.not_lt_of_le (Nat.add_le_add_right h 2))

/-- Settles O20: beyond 1022 bytes a raise, else the frame whose body is the message. -/
theorem frameBuildSDEffect : Obligations.FrameBuildSDEffect := by
  refine ⟨fun n s => ⟨fun hn => ?_, fun hn => ?_⟩, fun n => rfl, rfl, by decide +kernel⟩
  · exact ⟨_, exec_frameBuildSD_of_lt hn, State.finish_sameSurroundings .., fun a => rfl, rfl⟩
  · have hlen : (s.input n.toNat).length = n.toNat := s.input_length n.toNat
    obtain ⟨hhi, hlo⟩ := s.deliverFrame_outputByte_trailer hlen.symm
    refine ⟨_, exec_frameBuildSD_of_le hn, State.finish_sameSurroundings .., ?_, fun a ha => ?_, hhi, hlo,
      fun a ha => ?_⟩
    · rw [State.deliverFrame_x, hlen]
    · rw [s.deliverFrame_outputByte_body (hlen.symm ▸ ha), State.input_getElem]
    · exact s.deliverFrame_outputByte_beyond (hlen.symm ▸ ha)

/-! ## FRAME.BUILD.LP -/

section BuildLP
variable {cmd : Byte} {n : Half} {s : State}

theorem exec_frameBuildLP_of_not_mem (hcmd : cmd ∉ s.params.cmdSet) :
    exec (.frameBuildLP cmd n) s = .next (s.raise .validationError .unknownCommand 0 cmd.toNat none) :=
  if_pos hcmd

theorem exec_frameBuildLP_of_lt (hcmd : cmd ∈ s.params.cmdSet) (h : 1017 < n.toNat) :
    exec (.frameBuildLP cmd n) s = .next (s.raise .oversizeFrame .noCause 1024 (n.toNat + 7) none) :=
  (if_neg (not_not_intro hcmd)).trans (if_pos (Nat.add_lt_add_right h 7))

theorem exec_frameBuildLP_of_le (hcmd : cmd ∈ s.params.cmdSet) (h : n.toNat ≤ 1017) :
    exec (.frameBuildLP cmd n) s = .next (s.deliverFrame (headBytes cmd n ++ s.input n.toNat)) :=
  (if_neg (not_not_intro hcmd)).trans (if_neg (Nat.not_lt_of_le (Nat.add_le_add_right h 7)))

end BuildLP

section FrameLP
variable (s : State) (cmd : Byte) (n : Half)

/-- The body of a length-prefixed frame is the five bytes of its head and the payload (30_encoding.md R78). -/
theorem headBytes_append_input_length : (headBytes cmd n ++ s.input n.toNat).length = n.toNat + 5 := by
  rw [List.length_append, headBytes_length, State.input_length, Nat.add_comm]

/-- A length-prefixed frame begins with header, version, command and length (30_encoding.md R78, R79). -/
theorem State.deliverFrame_outputByte_head (payload : List Byte) :
    let t := s.deliverFrame (headBytes cmd n ++ payload)
    t.outputByte 0 = header ∧ t.outputByte 1 = version ∧ t.outputByte 2 = cmd ∧
      t.outputByte 3 = hi8 n ∧ t.outputByte 4 = lo8 n := by
  have hhead : ∀ a, (ha : a < 5) →
      (s.deliverFrame (headBytes cmd n ++ payload)).outputByte a = (headBytes cmd n)[a]'ha := by
    intro a ha
    have hlt : a < (headBytes cmd n ++ payload).length := by rw [List.length_append, headBytes_length]; omega
    rw [s.deliverFrame_outputByte_body hlt, List.getElem_append_left ha]
  exact ⟨hhead 0 (by decide), hhead 1 (by decide), hhead 2 (by decide), hhead 3 (by decide), hhead 4 (by decide)⟩

/-- Behind the five bytes of the head stands the payload (30_encoding.md R78). -/
theorem State.deliverFrame_outputByte_payload {a : Nat} (ha : a < n.toNat) :
    (s.deliverFrame (headBytes cmd n ++ s.input n.toNat)).outputByte (5 + a) = s.inputByte a := by
  have hlt : 5 + a < (headBytes cmd n ++ s.input n.toNat).length := by
    rw [headBytes_append_input_length]
    omega
  rw [s.deliverFrame_outputByte_body hlt, List.getElem_append_right (Nat.le_add_right 5 a), State.input_getElem,
    headBytes_length, Nat.add_sub_cancel_left]

end FrameLP

/-- Settles O19: an unknown command or an oversize frame is a raise; else the frame whose body is the
head and the payload. -/
theorem frameBuildLPEffect : Obligations.FrameBuildLPEffect := by
  refine ⟨fun cmd n s => ⟨fun hcmd => ?_, fun hcmd hn => ?_, fun hcmd hn => ?_⟩, fun cmd n => rfl, rfl,
    by decide +kernel⟩
  · exact ⟨_, exec_frameBuildLP_of_not_mem hcmd, State.finish_sameSurroundings .., fun a => rfl,
      congrArg (Results.mk 0x41 0 0 0 0 0 0) (BitVec.ofNat_toNat 32 cmd)⟩
  · exact ⟨_, exec_frameBuildLP_of_lt hcmd hn, State.finish_sameSurroundings .., fun a => rfl, rfl⟩
  · have hlen := headBytes_append_input_length s cmd n
    obtain ⟨h0, h1, h2, h3, h4⟩ := s.deliverFrame_outputByte_head cmd n (s.input n.toNat)
    obtain ⟨hhi, hlo⟩ := s.deliverFrame_outputByte_trailer hlen.symm
    refine ⟨_, exec_frameBuildLP_of_le hcmd hn, State.finish_sameSurroundings .., ?_, h0, h1, h2, h3, h4,
      fun a ha => s.deliverFrame_outputByte_payload cmd n ha, hhi, hlo, fun a ha => ?_⟩
    · rw [State.deliverFrame_x, hlen]
      rfl
    · exact s.deliverFrame_outputByte_beyond (hlen.symm ▸ ha)

end Sys2Proof.Machine
end

section
/-!
PROOFS. The two decodes and the laws of the codec (42_frame_decode.md R130 to R142). The ideas:
- `IB[0 .. n-1]` is its remainder with two bytes behind it, so a frame passes the frame check exactly when
  it is `withTrailer` of its remainder (`State.input_add_two`, `State.verifyFrame_of_withTrailer`).
- A decode of either variant thus accepts the frames that the build of the same variant makes, and no
  others, and the round trips are read off that.
- Every built frame has an even number of 1 bits, so one with an odd number of flips fails its frame check.
-/
namespace Sys2Proof.Machine

/-! ## The remainder and the trailer of a frame -/

theorem be16Bytes_inj {v w : Half} (h : be16Bytes v = be16Bytes w) : v = w := by
  obtain ⟨hhi, hlo⟩ : hi8 v = hi8 w ∧ lo8 v = lo8 w := by simpa [be16Bytes] using h
  rw [← be16_hi8_lo8 v, hhi, hlo, be16_hi8_lo8]

/-- A frame is its remainder and the two bytes of its trailer (42_frame_decode.md R130). -/
theorem State.input_add_two (s : State) (m : Nat) : s.input (m + 2) = s.input m ++ be16Bytes (s.inputHalf m) := by
  simp [State.input, List.range_succ, be16Bytes, State.inputHalf]

/-- The trailer of a frame of `n` bytes, byte by byte. -/
theorem State.inputHalf_trailer (s : State) {n : Nat} (hn : 2 ≤ n) :
    s.inputHalf (n - 2) = be16 (s.inputByte (n - 2)) (s.inputByte (n - 1)) := by
  rw [State.inputHalf, show n - 2 + 1 = n - 1 by omega]

/-- The input of a frame whose trailer is right is its remainder with its trailer. -/
theorem State.input_eq_withTrailer {s : State} {n : Nat} (hn : 2 ≤ n)
    (h : s.inputHalf (n - 2) = crc16 (s.input (n - 2))) : s.input n = withTrailer (s.input (n - 2)) := by
  obtain ⟨m, rfl⟩ := Nat.exists_eq_add_of_le' hn
  rw [Nat.add_sub_cancel] at h ⊢
  rw [State.input_add_two, h, withTrailer]

theorem State.input_eq_outputBytes {s u : State} {n : Nat} (h : ∀ a < n, u.inputByte a = s.outputByte a) :
    u.input n = s.outputBytes n :=
  List.map_congr_left fun a ha => h a (List.mem_range.mp ha)

/-- Equal bytes of `OB` and of another state's `IB`, taken out of equal sequences. -/
theorem State.outputByte_of_outputBytes {s u : State} {n a : Nat} (h : s.outputBytes n = u.input n) (ha : a < n) :
    s.outputByte a = u.inputByte a :=
  List.map_inj_left.mp h a (List.mem_range.mpr ha)

/-! ## The frame check -/

section FrameCheck
variable {s : State} {n : Nat}

theorem State.verifyFrame_of_lt (h : n < 2) : s.verifyFrame n = .error (s.raise .frameTooShort .noCause 2 n none) :=
  if_pos h

theorem State.verifyFrame_of_ne (hn : 2 ≤ n) (h : s.inputHalf (n - 2) ≠ crc16 (s.input (n - 2))) :
    s.verifyFrame n = .error (s.raise .checksumMismatch .noCause (crc16 (s.input (n - 2))).toNat
      (s.inputHalf (n - 2)).toNat (some ⟨crc16 (s.input (n - 2)), s.inputHalf (n - 2)⟩)) :=
  (if_neg (Nat.not_lt_of_le hn)).trans (if_neg h)

theorem State.verifyFrame_of_eq (hn : 2 ≤ n) (h : s.inputHalf (n - 2) = crc16 (s.input (n - 2))) :
    s.verifyFrame n = .ok (crc16 (s.input (n - 2))) :=
  (if_neg (Nat.not_lt_of_le hn)).trans (if_pos h)

/-- A body with its trailer passes the frame check, and the body is what remains (42_frame_decode.md R130). -/
theorem State.verifyFrame_of_withTrailer {body : List Byte} (h : s.input n = withTrailer body) :
    s.verifyFrame n = .ok (crc16 body) ∧ s.input (n - 2) = body := by
  have hn : n = body.length + 2 := by simpa using congrArg List.length h
  subst hn
  rw [State.input_add_two, withTrailer] at h
  obtain ⟨hbody, htrailer⟩ := List.append_inj h (s.input_length _)
  have hsum : s.inputHalf body.length = crc16 (s.input body.length) := by rw [be16Bytes_inj htrailer, hbody]
  have hverify := State.verifyFrame_of_eq (Nat.le_add_left 2 body.length) hsum
  rw [Nat.add_sub_cancel] at hverify ⊢
  rw [hbody] at hverify
  exact ⟨hverify, hbody⟩

end FrameCheck

/-! ## The length-prefixed remainder -/

/-- The five bytes of the head and the payload behind them (30_encoding.md R78). -/
theorem State.input_eq_cons (s : State) {m : Nat} (h : 5 ≤ m) :
    s.input m = s.inputByte 0 :: s.inputByte 1 :: s.inputByte 2 :: s.inputByte 3 :: s.inputByte 4 ::
      (List.range (m - 5)).map fun a => s.inputByte (5 + a) := by
  obtain ⟨k, rfl⟩ := Nat.exists_eq_add_of_le h
  rw [Nat.add_sub_cancel_left, State.input, List.range_add, List.map_append, List.map_map]
  rfl

theorem parseRemainder_of_length_lt {cmdSet bs : List Byte} (h : bs.length < 5) :
    parseRemainder cmdSet bs = .error ⟨.truncated, 5, bs.length⟩ := by
  match bs, h with
  | [], _ | [_], _ | [_, _], _ | [_, _, _], _ | [_, _, _, _], _ => rfl

/-- The parse of a remainder of `IB`, check by check in the order of steps 3 to 7 (42_frame_decode.md R132). -/
theorem State.parseRemainder_input (s : State) (cmdSet : List Byte) (m : Nat) :
    parseRemainder cmdSet (s.input m) =
      let F := s.inputByte
      if m < 5 then .error ⟨.truncated, 5, m⟩
      else if F 0 ≠ 0x47 then .error ⟨.badHeader, 0x47, (F 0).toNat⟩
      else if F 1 ≠ 0x01 then .error ⟨.badVersion, 0x01, (F 1).toNat⟩
      else if F 2 ∉ cmdSet then .error ⟨.unknownCommand, 0, (F 2).toNat⟩
      else if (be16 (F 3) (F 4)).toNat ≠ m - 5 then .error ⟨.lengthMismatch, (be16 (F 3) (F 4)).toNat, m - 5⟩
      else .ok ⟨F 2, be16 (F 3) (F 4), (List.range (m - 5)).map fun a => F (5 + a)⟩ := by
  dsimp only
  by_cases hm : m < 5
  · have hlt : (s.input m).length < 5 := (s.input_length m).trans_lt hm
    rw [if_pos hm, parseRemainder_of_length_lt hlt, State.input_length]
  · have hlen : ((List.range (m - 5)).map fun a => s.inputByte (5 + a)).length = m - 5 := by simp
    rw [if_neg hm, s.input_eq_cons (Nat.le_of_not_lt hm)]
    simp only [parseRemainder, hlen]
    rfl

/-! ## The ends of the decodes -/

section Decode
variable {n : Half} {s t : State}

theorem exec_frameDecodeLP_of_lt (h : 1024 < n.toNat) :
    exec (.frameDecodeLP n) s = .refused (.lengthBeyondMaxFrame n) := if_neg (Nat.not_le_of_lt h)

theorem exec_frameDecodeSD_of_lt (h : 1024 < n.toNat) :
    exec (.frameDecodeSD n) s = .refused (.lengthBeyondMaxFrame n) := if_neg (Nat.not_le_of_lt h)

theorem exec_frameDecodeLP_of_verify_error (hn : n.toNat ≤ 1024) (hv : s.verifyFrame n.toNat = .error t) :
    exec (.frameDecodeLP n) s = .next t := by
  simp only [exec, execFrameDecodeLP, if_pos hn, hv]

theorem exec_frameDecodeSD_of_verify_error (hn : n.toNat ≤ 1024) (hv : s.verifyFrame n.toNat = .error t) :
    exec (.frameDecodeSD n) s = .next t := by
  simp only [exec, execFrameDecodeSD, if_pos hn, hv]

theorem exec_frameDecodeLP_of_parse_error (hn : n.toNat ≤ 1024) {sum : Half} {e : ParseError}
    (hv : s.verifyFrame n.toNat = .ok sum)
    (hp : parseRemainder s.params.cmdSet (s.input (n.toNat - 2)) = .error e) :
    exec (.frameDecodeLP n) s = .next (s.raise .deserializationError e.sub e.exp e.act (some ⟨sum, sum⟩)) := by
  simp only [exec, execFrameDecodeLP, if_pos hn, hv, hp]

theorem exec_frameDecodeLP_of_parse_ok (hn : n.toNat ≤ 1024) {sum : Half} {p : Parsed}
    (hv : s.verifyFrame n.toNat = .ok sum)
    (hp : parseRemainder s.params.cmdSet (s.input (n.toNat - 2)) = .ok p) :
    exec (.frameDecodeLP n) s =
      .next (s.succeed { out := p.payload, comp := sum, recv := sum, cmd := p.cmd, len := p.len }) := by
  simp only [exec, execFrameDecodeLP, if_pos hn, hv, hp]

theorem exec_frameDecodeSD_of_verify_ok (hn : n.toNat ≤ 1024) {sum : Half} (hv : s.verifyFrame n.toNat = .ok sum) :
    exec (.frameDecodeSD n) s = .next (s.succeed { out := s.input (n.toNat - 2), comp := sum, recv := sum }) := by
  simp only [exec, execFrameDecodeSD, if_pos hn, hv]

end Decode

/-! ## The effects of the decodes -/

/-- The registers of a mismatch hold both checksums twice (60_exceptions.md R185). -/
theorem failureResults_checksumMismatch (comp recv : Half) :
    failureResults .checksumMismatch .noCause comp.toNat recv.toNat (some ⟨comp, recv⟩) =
      ⟨0x03, 0, comp.setWidth 32, recv.setWidth 32, 0, 0, comp.setWidth 32, recv.setWidth 32⟩ := by
  simp only [failureResults, BitVec.ofNat_toNat]
  rfl

section FrameCheckReports
variable {s : State} {n : Half} {o : Host.Outcome State Fault Refusal}

/-- A decode that ends with its frame check reports a frame of fewer than two bytes (60_exceptions.md R184). -/
theorem reports_of_frameTooShort (ho : ∀ t, s.verifyFrame n.toNat = .error t → o = .next t) (h : n.toNat < 2) :
    ∃ t, o = .next t ∧ SameSurroundings s t ∧ t.x = ⟨0x02, 0, 0, 0, 0, 0, 2, n.setWidth 32⟩ ∧ SameOutput s t :=
  ⟨_, ho _ (State.verifyFrame_of_lt h), State.finish_sameSurroundings ..,
    congrArg (Results.mk 0x02 0 0 0 0 0 2) (BitVec.ofNat_toNat 32 n), fun _ => rfl⟩

/-- A decode that ends with its frame check reports both checksums of a mismatch (60_exceptions.md R185). -/
theorem reports_of_checksumMismatch (ho : ∀ t, s.verifyFrame n.toNat = .error t → o = .next t) (hn : 2 ≤ n.toNat)
    {comp recv : Half} (hcomp : crc16 (s.input (n.toNat - 2)) = comp) (hrecv : s.inputHalf (n.toNat - 2) = recv)
    (h : recv ≠ comp) :
    ∃ t, o = .next t ∧ SameSurroundings s t ∧
      t.x = ⟨0x03, 0, comp.setWidth 32, recv.setWidth 32, 0, 0, comp.setWidth 32, recv.setWidth 32⟩ ∧
      SameOutput s t := by
  subst hcomp hrecv
  exact ⟨_, ho _ (State.verifyFrame_of_ne hn h), State.finish_sameSurroundings ..,
    failureResults_checksumMismatch .., fun _ => rfl⟩

end FrameCheckReports

/-- A verified frame that does not parse leaves its status, its two values and the verified checksum twice
(60_exceptions.md R186, R189). -/
theorem exec_frameDecodeLP_reports {n : Half} {s : State} (hn : n.toNat ≤ 1024) {sum : Half} {sub : Sub} {e a : Nat}
    (hv : s.verifyFrame n.toNat = .ok sum)
    (hp : parseRemainder s.params.cmdSet (s.input (n.toNat - 2)) = .error ⟨sub, e, a⟩) {status exp act : Word}
    (hstatus : statusWord .deserializationError sub = status) (hexp : BitVec.ofNat 32 e = exp)
    (hact : BitVec.ofNat 32 a = act) :
    ∃ t, exec (.frameDecodeLP n) s = .next t ∧ SameSurroundings s t ∧
      t.x = ⟨status, 0, sum.setWidth 32, sum.setWidth 32, 0, 0, exp, act⟩ ∧ SameOutput s t := by
  subst hstatus hexp hact
  exact ⟨_, exec_frameDecodeLP_of_parse_error hn hv hp, State.finish_sameSurroundings .., rfl, fun a => rfl⟩

/-- After a success `OB` begins with the listed bytes (10_state.md R37). -/
theorem State.succeed_outputByte_map {s : State} {r : Success} {f : Nat → Byte} {m : Nat}
    (h : r.out = (List.range m).map f) (a : Nat) :
    (s.succeed r).outputByte a = if a < m then f a else s.outputByte a := by
  simp [State.succeed, State.finish_outputByte, h]

/-- Settles O22: the three steps in order, each with the end it has. -/
theorem frameDecodeSDEffect : Obligations.FrameDecodeSDEffect := by
  refine ⟨fun n s => ⟨fun hn => ?_, exec_frameDecodeSD_of_lt⟩, fun n => rfl, rfl, by decide +kernel⟩
  dsimp only
  by_cases h2 : n.toNat < 2
  · simp only [if_pos h2]
    exact reports_of_frameTooShort (fun _ => exec_frameDecodeSD_of_verify_error hn) h2
  have hle := Nat.le_of_not_lt h2
  simp only [if_neg h2, ← s.inputHalf_trailer hle]
  by_cases hsum : s.inputHalf (n.toNat - 2) = crc16 (s.input (n.toNat - 2))
  · simp only [if_neg (not_not_intro hsum)]
    refine ⟨_, exec_frameDecodeSD_of_verify_ok hn (State.verifyFrame_of_eq hle hsum),
      State.finish_sameSurroundings .., ?_, State.succeed_outputByte_map rfl⟩
    simp only [State.succeed_x, successResults, State.input_length]
    rfl
  · simp only [if_pos hsum]
    exact reports_of_checksumMismatch (fun _ => exec_frameDecodeSD_of_verify_error hn) hle rfl rfl hsum

/-- Settles O21: the frame check as for O22, then the checks of the parse in their order. -/
theorem frameDecodeLPEffect : Obligations.FrameDecodeLPEffect := by
  refine ⟨fun n s => ⟨fun hn => ?_, exec_frameDecodeLP_of_lt⟩, fun n => rfl, rfl, by decide +kernel⟩
  dsimp only
  by_cases h2 : n.toNat < 2
  · simp only [if_pos h2]
    exact reports_of_frameTooShort (fun _ => exec_frameDecodeLP_of_verify_error hn) h2
  have hle := Nat.le_of_not_lt h2
  simp only [if_neg h2, ← s.inputHalf_trailer hle]
  by_cases hsum : s.inputHalf (n.toNat - 2) ≠ crc16 (s.input (n.toNat - 2))
  · simp only [if_pos hsum]
    exact reports_of_checksumMismatch (fun _ => exec_frameDecodeLP_of_verify_error hn) hle rfl rfl hsum
  have hv := State.verifyFrame_of_eq hle (not_not.mp hsum)
  have hp := s.parseRemainder_input s.params.cmdSet (n.toNat - 2)
  simp only [if_neg hsum]
  by_cases hm : n.toNat - 2 < 5
  · simp only [if_pos hm] at hp ⊢
    exact exec_frameDecodeLP_reports hn hv hp (by decide) rfl rfl
  simp only [if_neg hm] at hp ⊢
  by_cases hheader : s.inputByte 0 ≠ 0x47
  · simp only [if_pos hheader] at hp ⊢
    exact exec_frameDecodeLP_reports hn hv hp (by decide) rfl (BitVec.ofNat_toNat ..)
  simp only [if_neg hheader] at hp ⊢
  by_cases hversion : s.inputByte 1 ≠ 0x01
  · simp only [if_pos hversion] at hp ⊢
    exact exec_frameDecodeLP_reports hn hv hp (by decide) rfl (BitVec.ofNat_toNat ..)
  simp only [if_neg hversion] at hp ⊢
  by_cases hcmd : s.inputByte 2 ∉ s.params.cmdSet
  · simp only [if_pos hcmd] at hp ⊢
    exact exec_frameDecodeLP_reports hn hv hp (by decide) rfl (BitVec.ofNat_toNat ..)
  simp only [if_neg hcmd] at hp ⊢
  by_cases hlen : (be16 (s.inputByte 3) (s.inputByte 4)).toNat ≠ n.toNat - 2 - 5
  · simp only [if_pos hlen] at hp ⊢
    exact exec_frameDecodeLP_reports hn hv hp (by decide) (BitVec.ofNat_toNat ..) rfl
  simp only [if_neg hlen] at hp ⊢
  rw [← not_not.mp hlen] at hp
  refine ⟨_, exec_frameDecodeLP_of_parse_ok hn hv hp, State.finish_sameSurroundings .., ?_,
    State.succeed_outputByte_map rfl⟩
  simp only [State.succeed_x, successResults, List.length_map, List.length_range, BitVec.ofNat_toNat]
  rfl

/-! ## Frames that pass every check -/

section Accepted
variable {n : Half} {s : State}

/-- FRAME.DECODE.SD delivers the message of a frame whose trailer is right (42_frame_decode.md R137). -/
theorem exec_frameDecodeSD_of_withTrailer {message : List Byte} (hn : n.toNat ≤ 1024)
    (h : s.input n.toNat = withTrailer message) :
    exec (.frameDecodeSD n) s =
      .next (s.succeed { out := message, comp := crc16 message, recv := crc16 message }) := by
  obtain ⟨hv, hbody⟩ := State.verifyFrame_of_withTrailer h
  rw [exec_frameDecodeSD_of_verify_ok hn hv, hbody]

/-- FRAME.DECODE.LP delivers the payload of a well-formed frame (42_frame_decode.md R132). -/
theorem exec_frameDecodeLP_of_withTrailer {cmd : Byte} {k : Half} {payload : List Byte} (hn : n.toNat ≤ 1024)
    (hcmd : cmd ∈ s.params.cmdSet) (hk : k.toNat = payload.length)
    (h : s.input n.toNat = withTrailer (headBytes cmd k ++ payload)) :
    exec (.frameDecodeLP n) s =
      .next (s.succeed { out := payload, comp := crc16 (headBytes cmd k ++ payload),
                         recv := crc16 (headBytes cmd k ++ payload), cmd := cmd, len := k }) := by
  obtain ⟨hv, hbody⟩ := State.verifyFrame_of_withTrailer h
  exact exec_frameDecodeLP_of_parse_ok hn hv (hbody ▸ parseRemainder_headBytes hcmd hk)

/-- A frame that FRAME.DECODE.LP accepts is a well-formed one (42_frame_decode.md R139). -/
theorem exec_frameDecodeLP_accepts {t : State} (h : exec (.frameDecodeLP n) s = .next t) (hok : t.x.status = 0) :
    ∃ cmd ∈ s.params.cmdSet, ∃ (k : Half) (payload : List Byte), n.toNat ≤ 1024 ∧ k.toNat = payload.length ∧
      s.input n.toNat = withTrailer (headBytes cmd k ++ payload) ∧
      t = s.succeed { out := payload, comp := crc16 (headBytes cmd k ++ payload),
                      recv := crc16 (headBytes cmd k ++ payload), cmd := cmd, len := k } := by
  obtain ⟨hn, hv | ⟨sum, e, _, _, rfl⟩ | ⟨sum, p, hv, hp, rfl⟩⟩ := exec_frameDecodeLP_next h
  · rcases State.verifyFrame_error_status hv with hst | hst <;> rw [hst] at hok <;> cases hok
  · exact absurd hok (statusWord_ne_ok _ _)
  · obtain ⟨h2, htrailer, rfl⟩ := State.verifyFrame_ok hv
    obtain ⟨hbody, hcmd, hk⟩ := parseRemainder_ok hp
    have hframe := State.input_eq_withTrailer h2 htrailer
    simp only [crcLen] at hbody
    rw [hbody] at hframe ⊢
    exact ⟨p.cmd, hcmd, p.len, p.payload, hn, hk, hframe, rfl⟩

end Accepted

/-- Settles O24: the frame is the message with its trailer. -/
theorem frameDecodeSDDeliversMessage : Obligations.FrameDecodeSDDeliversMessage := by
  intro message n s hn hlen h
  refine ⟨_, exec_frameDecodeSD_of_withTrailer (by omega) h, State.finish_sameSurroundings .., rfl,
    olen_toNat ?_, rfl, rfl, rfl, rfl, rfl, rfl, State.finish_outputByte s _ message⟩
  simp only [obCap, maxFrame]
  omega

/-- Settles O23: the frame is a head with its payload and their trailer. -/
theorem frameDecodeLPDeliversPayload : Obligations.FrameDecodeLPDeliversPayload := by
  intro cmd payload n s hcmd hn hlen h
  have hk : (BitVec.ofNat 16 payload.length).toNat = payload.length := by
    rw [BitVec.toNat_ofNat]
    omega
  refine ⟨_, exec_frameDecodeLP_of_withTrailer (by omega) hcmd hk h, State.finish_sameSurroundings .., rfl, rfl,
    (BitVec.toNat_setWidth_of_le (by decide)).trans hk, olen_toNat ?_, rfl, rfl, rfl,
    State.finish_outputByte s _ payload⟩
  simp only [obCap, maxFrame]
  omega

/-! ## The checksums and `STATUS` -/

/-- Settles O36, from the legality of what an operation reports. -/
theorem statusTellsChecksumsApart : Obligations.StatusTellsChecksumsApart := by
  intro i s t h
  obtain ⟨-, -, -, -, -, -, -, -, -, -, -, hmismatch, hsame⟩ := (exec_next h).results_legal
  refine ⟨hsame, fun hst => ?_⟩
  have hkind : statusKind t.x.status = 3 := by rw [hst]; rfl
  exact (hmismatch hkind).1

/-! ## The round trips -/

/-- The bytes an operation writes are what `OB` begins with (10_state.md R37). -/
theorem State.finish_outputBytes (s : State) (x : Results) (out : List Byte) :
    (s.finish x out).outputBytes out.length = out := by
  refine List.ext_getElem (by simp [State.outputBytes]) fun a _ ha => ?_
  simp only [State.outputBytes, List.getElem_map, List.getElem_range, State.finish_outputByte, dif_pos ha]

/-- What a build delivers is the body with its trailer (41_frame_build.md R112, R116). -/
theorem State.deliverFrame_outputBytes (s : State) {body : List Byte} {len : Nat} (h : body.length + 2 = len) :
    (s.deliverFrame body).outputBytes len = withTrailer body := by
  subst h
  rw [← withTrailer_length]
  exact State.finish_outputBytes ..

/-- A length operand that counts the bytes of a frame does not wrap round (41_frame_build.md R110). -/
theorem half_add_toNat {n : Half} {k : Nat} (h : n.toNat + k ≤ 1024) :
    (n + BitVec.ofNat 16 k).toNat = n.toNat + k := by
  rw [BitVec.toNat_add, BitVec.toNat_ofNat]
  omega

/-- Settles O38: the decode is given the frame that the build delivers. -/
theorem selfDescribingRoundTrip : Obligations.SelfDescribingRoundTrip := by
  intro s n hn
  have hlen := s.input_length n.toNat
  have hbytes : (s.deliverFrame (s.input n.toNat)).outputBytes (n.toNat + 2) = withTrailer (s.input n.toNat) :=
    s.deliverFrame_outputBytes (by rw [hlen])
  refine ⟨_, exec_frameBuildSD_of_le hn, rfl, hbytes, fun u hu => ?_⟩
  have hn2 : (n + 2).toNat = n.toNat + 2 := half_add_toNat (Nat.add_le_add_right hn 2)
  have hframe : u.input (n + 2).toNat = withTrailer (s.input n.toNat) := by
    rw [hn2, State.input_eq_outputBytes hu, hbytes]
  refine ⟨_, exec_frameDecodeSD_of_withTrailer (by omega) hframe, rfl, ?_, fun a ha => ?_⟩
  · simp only [State.succeed_x, successResults, hlen]
    exact olen_toNat (hn.trans (by decide))
  · rw [State.succeed_outputByte_map rfl, if_pos ha]

/-- Decoding the frame of a build gives back its command, its length and its payload (42_frame_decode.md R139). -/
theorem exec_frameDecodeLP_of_build {s u : State} {cmd : Byte} {n : Half} (hcmd : cmd ∈ s.params.cmdSet)
    (hn : n.toNat ≤ 1017) (hp : u.params = s.params)
    (hu : ∀ a < n.toNat + 7, u.inputByte a = (s.deliverFrame (headBytes cmd n ++ s.input n.toNat)).outputByte a) :
    ∃ v, exec (.frameDecodeLP (n + 7)) u = .next v ∧ v.x.status = 0 ∧ v.x.cmdOut = cmd.setWidth 32 ∧
      v.x.lenOut.toNat = n.toNat ∧ v.x.olen.toNat = n.toNat ∧ ∀ a < n.toNat, v.outputByte a = s.inputByte a := by
  have hn7 : (n + 7).toNat = n.toNat + 7 := half_add_toNat (Nat.add_le_add_right hn 7)
  have hframe : u.input (n + 7).toNat = withTrailer (headBytes cmd n ++ s.input n.toNat) := by
    rw [hn7, State.input_eq_outputBytes hu]
    exact s.deliverFrame_outputBytes (by rw [headBytes_append_input_length])
  have hlen := s.input_length n.toNat
  refine ⟨_, exec_frameDecodeLP_of_withTrailer (by omega) (hp ▸ hcmd) hlen.symm hframe, rfl, rfl,
    BitVec.toNat_setWidth_of_le (by decide), ?_, fun a ha => ?_⟩
  · simp only [State.succeed_x, successResults, hlen]
    exact olen_toNat (hn.trans (by decide))
  · rw [State.succeed_outputByte_map rfl, if_pos ha]

/-- Building from the command and the payload of a well-formed frame gives back the frame (42_frame_decode.md
R139). -/
theorem exec_frameBuildLP_of_frame {s u : State} {cmd : Byte} {k n : Half} (hcmd : cmd ∈ u.params.cmdSet)
    (hn : n.toNat ≤ 1024) (hframe : s.input n.toNat = withTrailer (headBytes cmd k ++ u.input k.toNat)) :
    ∃ v, exec (.frameBuildLP cmd k) u = .next v ∧ v.x.status = 0 ∧ v.x.olen.toNat = n.toNat ∧
      ∀ a < n.toNat, v.outputByte a = s.inputByte a := by
  have hlen := headBytes_append_input_length u cmd k
  have hsize : n.toNat = (headBytes cmd k ++ u.input k.toNat).length + 2 := by
    rw [← withTrailer_length, ← hframe, State.input_length]
  refine ⟨_, exec_frameBuildLP_of_le hcmd (by omega), rfl, ?_, fun a ha => ?_⟩
  · rw [State.deliverFrame_x, ← hsize]
    exact olen_toNat hn
  · exact State.outputByte_of_outputBytes ((u.deliverFrame_outputBytes hsize.symm).trans hframe.symm) ha

/-- Settles O37: the frames that the decode accepts are those that the build makes. -/
theorem lengthPrefixedRoundTrip : Obligations.LengthPrefixedRoundTrip := by
  refine ⟨fun s cmd n hcmd hn => ?_, fun s t n h hok u hp hu => ?_⟩
  · refine ⟨_, exec_frameBuildLP_of_le hcmd hn, rfl, ?_, fun u => exec_frameDecodeLP_of_build hcmd hn⟩
    rw [State.deliverFrame_x, headBytes_append_input_length]
    exact olen_toNat (Nat.add_le_add_right hn 7)
  · obtain ⟨cmd, hcmd, k, payload, hn, hk, hframe, rfl⟩ := exec_frameDecodeLP_accepts h hok
    have hcmdOut : (cmd.setWidth 32).setWidth 8 = cmd := by simp
    have holen : BitVec.ofNat 32 payload.length = k.setWidth 32 := by rw [← hk, BitVec.ofNat_toNat]
    have hkOut : (k.setWidth 32).setWidth 16 = k := by simp
    have hkNat : (k.setWidth 32).toNat = k.toNat := BitVec.toNat_setWidth_of_le (by decide)
    simp only [State.succeed_x, successResults, hcmdOut, holen, hkOut, hkNat] at hu ⊢
    have hpayload : u.input k.toNat = payload := by
      rw [State.input_eq_outputBytes hu, hk]
      exact State.finish_outputBytes ..
    exact exec_frameBuildLP_of_frame (hp ▸ hcmd) hn (hpayload.symm ▸ hframe)

/-! ## Tampered frames -/

/-- A delivered frame with an odd number of flips fails its frame check with a mismatch (42_frame_decode.md
R141): its trailer is no longer that of its remainder. -/
theorem State.verifyFrame_of_odd_bitDistance {s u : State} {body : List Byte} {len : Nat}
    (hlen : body.length + 2 = len)
    (h : bitDistance ((s.deliverFrame body).outputBytes len) (u.input len) % 2 = 1) :
    ∃ v, u.verifyFrame len = .error v ∧ v.x.status = 0x03 := by
  rw [s.deliverFrame_outputBytes hlen] at h
  subst hlen
  rw [State.input_add_two] at h
  have hne := trailer_ne_of_odd_bitDistance (u.input_length body.length) h
  exact ⟨_, State.verifyFrame_of_ne (Nat.le_add_left 2 body.length) hne, rfl⟩

/-- Settles O39: a build that succeeds delivers a frame, and both decodes begin with the frame check. -/
theorem tamperedFramesAreDetected : Obligations.TamperedFramesAreDetected := by
  refine ⟨fun s t u cmd n h hok hodd => ?_, fun s t u n h hok hodd => ?_⟩
  · rcases exec_frameBuildLP_next h with ⟨_, rfl⟩ | ⟨_, _, rfl⟩ | ⟨_, hn, rfl⟩
    · exact absurd hok (statusWord_ne_ok _ _)
    · exact absurd hok (statusWord_ne_ok _ _)
    · have hn7 : (n + 7).toNat = n.toNat + 7 := half_add_toNat hn
      obtain ⟨v, hv, hst⟩ :=
        State.verifyFrame_of_odd_bitDistance (by rw [headBytes_append_input_length]) hodd
      exact ⟨v, exec_frameDecodeLP_of_verify_error (hn7.trans_le hn) (hn7 ▸ hv), hst⟩
  · rcases exec_frameBuildSD_next h with ⟨_, rfl⟩ | ⟨hn, rfl⟩
    · exact absurd hok (statusWord_ne_ok _ _)
    · have hn2 : (n + 2).toNat = n.toNat + 2 := half_add_toNat hn
      obtain ⟨v, hv, hst⟩ := State.verifyFrame_of_odd_bitDistance (by rw [State.input_length]) hodd
      exact ⟨v, exec_frameDecodeSD_of_verify_error (hn2.trans_le hn) (hn2 ▸ hv), hst⟩

end Sys2Proof.Machine
end

section
/-!
PROOFS. The payload builders outside the block (45_payload_collaborators.md R150 to R162). The ideas:
- A builder gives its payload exactly when its checks pass, and each check is a guard that rejects, so a
  request passes exactly when no guard fires, in whatever order they stand (`exists_ok_guard`).
- Two steps of the block, the placing of bytes and the issue of a build, are one build run from a state whose
  input is the placed bytes (`place_and_issue`), and a build's frame is read off the body it delivers.
-/
namespace Sys2Proof.Machine

/-! ## When a builder passes its checks -/

/-- A guarded answer is an answer exactly when the guard does not fire and the rest answers. -/
theorem exists_ok_guard {ε α : Type} {p : Prop} [Decidable p] {e : ε} {x : Except ε α} :
    (∃ a, (if p then .error e else x) = .ok a) ↔ ¬ p ∧ ∃ a, x = .ok a := by
  by_cases hp : p
  · simp [hp]
  · simp [hp]

section Checks
variable (c : Payload.Codes) (ports : Payload.PortRules)

theorem Payload.check_setMode_iff (b : Byte) :
    (∃ cmd, Payload.check c ports (.setMode b) = .ok cmd) ↔ b = c.primaryController ∨ b = c.passiveListener := by
  rw [← not_iff_not, ← Payload.Mode.ofCode_none]
  cases h : Payload.Mode.ofCode c b with
  | none => simp [Payload.check, h]
  | some mode => simp [Payload.check, h]

theorem Payload.check_setAntenna_iff (b : Byte) :
    (∃ cmd, Payload.check c ports (.setAntenna b) = .ok cmd) ↔
      b = c.internalAntenna ∨ b = c.externalAntenna := by
  rw [← not_iff_not, ← Payload.Antenna.ofCode_none]
  cases h : Payload.Antenna.ofCode c b with
  | none => simp [Payload.check, h]
  | some antenna => simp [Payload.check, h]

theorem Payload.check_setBaudrate_iff (b code : Byte) :
    (∃ cmd, Payload.check c ports (.setBaudrate b code) = .ok cmd) ↔
      ports.baudrate.accepts (.ofCode c b) = true ∧ code ∈ c.baudTable := by
  simp only [Payload.check, exists_ok_guard, Bool.not_eq_false, not_not, Except.ok.injEq, exists_eq', and_true]

theorem Payload.check_modbusOneShot_iff (b : Byte) (embedded : List Byte) :
    (∃ cmd, Payload.check c ports (.modbusOneShot b embedded) = .ok cmd) ↔
      ports.oneShot.accepts (.ofCode c b) = true ∧ embedded.length ≤ 256 := by
  simp only [Payload.check, exists_ok_guard, Bool.not_eq_false, not_lt, Except.ok.injEq, exists_eq', and_true]

theorem Payload.check_modbusPeriodic_iff (b : Byte) (index : Nat) (interval : Int) (embedded : List Byte) :
    (∃ cmd, Payload.check c ports (.modbusPeriodic b index interval embedded) = .ok cmd) ↔
      ports.periodic.accepts (.ofCode c b) = true ∧
        1 ≤ index ∧ index ≤ 64 ∧ 0 ≤ interval ∧ interval ≤ 2592000 ∧ embedded.length ≤ 256 := by
  simp only [Payload.check, exists_ok_guard, Bool.not_eq_false, not_or, not_lt, and_assoc, Except.ok.injEq,
    exists_eq', and_true]

/-- The port rule of the length-prefixed modbus periodic builder, where the collaborator asks for one
(45_payload_collaborators.md R161). -/
theorem Payload.lpPorts_periodic_accepts (b : Byte) :
    c.lpPorts.periodic.accepts (.ofCode c b) = true ↔
      (c.periodicChecksPort = true → b ∈ c.portSet ∧ b ≠ c.portNoEffect) := by
  cases h : c.periodicChecksPort with
  | true => simp [Payload.Codes.lpPorts, h]
  | false => simp [Payload.Codes.lpPorts, h]

end Checks

/-! ## What a length-prefixed builder gives -/

section Build
variable {c : Payload.Codes} {r : Payload.Request}

theorem Payload.build_of_check_ok {cmd : Payload.Command} (h : Payload.check c c.lpPorts r = .ok cmd) :
    Payload.build c r = .ok (Payload.layout c cmd) := by
  simp only [Payload.build, h]

theorem Payload.build_of_check_error {v : Payload.Violation} (h : Payload.check c c.lpPorts r = .error v) :
    Payload.build c r = .error v := by
  simp only [Payload.build, h]

/-- A builder whose checks pass exactly under a constraint, and that then lays out `p`, gives `p` exactly
under the constraint and else a ValidationError (45_payload_collaborators.md R152). -/
theorem Payload.build_exactly_when {ok : Prop} {p : List Byte}
    (hok : (∃ cmd, Payload.check c c.lpPorts r = .ok cmd) ↔ ok)
    (hp : ∀ cmd, Payload.check c c.lpPorts r = .ok cmd → Payload.layout c cmd = p) :
    (ok → Payload.build c r = .ok p) ∧
    (¬ ok → ∃ v, Payload.build c r = .error v ∧ statusKind v.status = 1) := by
  rw [← hok]
  cases hcheck : Payload.check c c.lpPorts r with
  | ok cmd => exact ⟨fun _ => (hp cmd hcheck) ▸ Payload.build_of_check_ok hcheck, fun h => absurd ⟨cmd, rfl⟩ h⟩
  | error v => exact ⟨nofun, fun _ => ⟨v, Payload.build_of_check_error hcheck, v.status_kind⟩⟩

end Build

/-- Settles O45: the checks of both builders are membership in a table of two codes. -/
theorem selectorConstraints : Obligations.SelectorConstraints := by
  refine ⟨fun _ => ⟨rfl, rfl⟩, fun c b => ?_⟩
  obtain ⟨hmode, hnoMode⟩ := Payload.build_exactly_when (Payload.check_setMode_iff c c.lpPorts b)
    fun _ h => Payload.check_ok h
  obtain ⟨hantenna, hnoAntenna⟩ := Payload.build_exactly_when (Payload.check_setAntenna_iff c c.lpPorts b)
    fun _ h => Payload.check_ok h
  exact ⟨hmode, hnoMode, hantenna, hnoAntenna⟩

/-- Settles O46: the port rule is membership in `PORT_SET` and what the open parameter adds to it. -/
theorem baudrateConstraints : Obligations.BaudrateConstraints := by
  refine ⟨fun _ _ => rfl, fun c port code => ?_⟩
  have hport := Payload.memberRule_accepts c port c.baudrateRejectsNoEffect
  exact Payload.build_exactly_when
    ((Payload.check_setBaudrate_iff c c.lpPorts port code).trans ((and_congr_left' hport).trans and_assoc))
    fun _ h => (Payload.check_ok h).1

/-- Settles O47: the port rule of the one-shot is fixed. -/
theorem modbusOneShotConstraints : Obligations.ModbusOneShotConstraints := by
  refine ⟨fun _ _ => rfl, fun c port embedded => ?_⟩
  have hport := Payload.PortRule.effective_accepts c port
  exact Payload.build_exactly_when
    ((Payload.check_modbusOneShot_iff c c.lpPorts port embedded).trans ((and_congr_left' hport).trans and_assoc))
    fun _ h => (Payload.check_ok h).1

/-- The three bytes of an interval are its value, the most significant first (45_payload_collaborators.md
R161). -/
theorem intervalBytes_value (v : BitVec 24) :
    65536 * (v.extractLsb' 16 8).toNat + 256 * (v.extractLsb' 8 8).toNat + (v.extractLsb' 0 8).toNat =
      v.toNat := by
  simp only [BitVec.extractLsb'_toNat, Nat.shiftRight_eq_div_pow]
  have hv := v.isLt
  omega

/-- An interval within its limits fits 24 bits (45_payload_collaborators.md R161). -/
theorem ofInt_interval_toNat {interval : Int} (h0 : 0 ≤ interval) (hmax : interval ≤ 2592000) :
    ((BitVec.ofInt 24 interval).toNat : Int) = interval := by
  rw [BitVec.toNat_ofInt]
  omega

/-- Settles O48: the port rule is the open parameter, and an interval within its limits is its three bytes. -/
theorem modbusPeriodicConstraints : Obligations.ModbusPeriodicConstraints := by
  refine ⟨fun _ _ _ _ => rfl, fun c port index interval embedded => ?_⟩
  have hport := Payload.lpPorts_periodic_accepts c port
  obtain ⟨hgives, hfails⟩ := Payload.build_exactly_when
    ((Payload.check_modbusPeriodic_iff c c.lpPorts port index interval embedded).trans (and_congr_left' hport))
    fun _ h => (Payload.check_ok h).1
  refine ⟨fun hok => ⟨_, _, _, ?_, hgives hok⟩, hfails⟩
  obtain ⟨_, _, _, h0, hmax, _⟩ := hok
  have hvalue := intervalBytes_value (BitVec.ofInt 24 interval)
  have hfits := ofInt_interval_toNat h0 hmax
  omega

/-! ## The build of a payload -/

/-- A length below 65536 is its length operand (45_payload_collaborators.md R150). -/
theorem length_operand_toNat {len : Nat} (h : len < 65536) : (BitVec.ofNat 16 len).toNat = len := by
  rw [BitVec.toNat_ofNat]
  exact Nat.mod_eq_of_lt h

/-- What the host finds after a build that delivers a frame of `len` bytes (41_frame_build.md R112, R116). -/
theorem State.deliverFrame_reports (s : State) {body : List Byte} {len : Nat} (h : body.length + 2 = len)
    (hfit : len ≤ 1024) :
    (s.deliverFrame body).x.status = 0 ∧ (s.deliverFrame body).x.olen.toNat = len ∧
      (s.deliverFrame body).outputBytes len = withTrailer body := by
  refine ⟨rfl, ?_, s.deliverFrame_outputBytes h⟩
  rw [State.deliverFrame_x, h]
  exact olen_toNat hfit

/-- FRAME.BUILD.LP of a payload that is the input (41_frame_build.md R112). -/
theorem exec_frameBuildLP_of_input {s : State} {cmd : Byte} {p : List Byte} (hcmd : cmd ∈ s.params.cmdSet)
    (hp : p.length ≤ 1017) (hin : s.input p.length = p) :
    exec (.frameBuildLP cmd (BitVec.ofNat 16 p.length)) s =
      .next (s.deliverFrame (headBytes cmd (BitVec.ofNat 16 p.length) ++ p)) := by
  have hn := length_operand_toNat (len := p.length) (by omega)
  rw [exec_frameBuildLP_of_le hcmd (hn.trans_le hp), hn, hin]

/-- FRAME.BUILD.SD of a message that is the input (41_frame_build.md R116). -/
theorem exec_frameBuildSD_of_input {s : State} {m : List Byte} (hm : m.length ≤ 1022)
    (hin : s.input m.length = m) :
    exec (.frameBuildSD (BitVec.ofNat 16 m.length)) s = .next (s.deliverFrame m) := by
  have hn := length_operand_toNat (len := m.length) (by omega)
  rw [exec_frameBuildSD_of_le (hn.trans_le hm), hn, hin]

/-- Settles O44: an empty payload under command 01, whose frame is the head and its trailer. -/
theorem deviceResetFrame : Obligations.DeviceResetFrame := by
  refine ⟨fun _ => rfl, rfl, rfl, fun s hcmd => ?_⟩
  obtain ⟨hstatus, _, hframe⟩ := s.deliverFrame_reports (body := headBytes 0x01 0 ++ []) (len := 7) rfl (by decide)
  refine ⟨_, exec_frameBuildLP_of_input (p := []) hcmd (by decide) rfl, hstatus, rfl, hframe.trans ?_⟩
  decide +kernel

/-- The payload of a builder is far below the limit of FRAME.BUILD.LP (45_payload_collaborators.md R162). -/
theorem Payload.build_length {c : Payload.Codes} {r : Payload.Request} {p : List Byte}
    (h : Payload.build c r = .ok p) :
    p.length ≤ 261 ∧ ∀ port e, r = .modbusOneShot port e → p.length ≤ 257 := by
  obtain ⟨cmd, hcheck, rfl⟩ := Payload.build_ok h
  exact Payload.layout_length hcheck

/-- FRAME.BUILD.LP within its limit ends in a frame or in ValidationError (41_frame_build.md R112). -/
theorem exec_frameBuildLP_not_oversize (cmd : Byte) {n : Half} (s : State) (hn : n.toNat ≤ 1017) :
    ∃ t, exec (.frameBuildLP cmd n) s = .next t ∧ statusKind t.x.status ≠ 5 := by
  by_cases hcmd : cmd ∈ s.params.cmdSet
  · exact ⟨_, exec_frameBuildLP_of_le hcmd hn, show statusKind 0 ≠ 5 by decide⟩
  · refine ⟨_, exec_frameBuildLP_of_not_mem hcmd, ?_⟩
    rw [State.raise_x, failureResults, statusKind_statusWord]
    decide

/-- Settles O49: 261 bytes are far below the 1017 that fit a frame. -/
theorem payloadBuildersNeverOversize : Obligations.PayloadBuildersNeverOversize := by
  intro c r p h
  obtain ⟨hlen, honeShot⟩ := Payload.build_length h
  have hn : (BitVec.ofNat 16 p.length).toNat = p.length := length_operand_toNat (by omega)
  exact ⟨hlen, honeShot, fun s => exec_frameBuildLP_not_oversize _ s (by omega)⟩

/-! ## The host's actions and the steps they take -/

section Actions
variable {c : Payload.Codes} {r : Payload.Request}

theorem Payload.actions_of_build_error {v : Payload.Violation} (h : Payload.build c r = .error v) :
    Payload.actions c r = .error v := by
  simp only [Payload.actions, h]

theorem Payload.actions_of_build_ok {p : List Byte} (h : Payload.build c r = .ok p) :
    Payload.actions c r =
      .ok [.writeInput 0 p, .issue (encode (.frameBuildLP r.command.code (BitVec.ofNat 16 p.length)))] := by
  simp only [Payload.actions, h]

variable {params : Config.Params} {serialize : Payload.Command → List Byte}

theorem Payload.actionsSD_of_check_error {v : Payload.Violation} (h : Payload.check c c.sdPorts r = .error v) :
    Payload.actionsSD params serialize c r = .error (.validation v) := by
  simp only [Payload.actionsSD, h]

theorem Payload.actionsSD_of_check_ok {cmd : Payload.Command} (h : Payload.check c c.sdPorts r = .ok cmd)
    (hlen : (serialize cmd).length < 65536) :
    Payload.actionsSD params serialize c r =
      .ok [.writeInput 0 ((serialize cmd).take (ibCap params)),
        .issue (encode (.frameBuildSD (BitVec.ofNat 16 (serialize cmd).length)))] := by
  simp only [Payload.actionsSD, h, if_pos hlen]

end Actions

/-- The state in which an operation runs after the host has placed bytes at the start of `IB` and issued it,
with the host's later actions still pending (10_state.md R26, 20_memory.md R61). -/
def State.placed (s : State) (bytes : List Byte) (i : Instr) (rest : List HostAction) : State :=
  State.latchCommand { s with ib := Memory.writeBytes s.ib 0 bytes, host := rest } (encode i)

section Placed
variable (s : State) (bytes : List Byte) (i : Instr) (rest : List HostAction)

/-- The placed bytes are the input of the operation (20_memory.md R56). -/
theorem State.placed_input : (s.placed bytes i rest).input bytes.length = bytes := by
  refine List.ext_getElem (State.input_length ..) fun a _ ha => ?_
  rw [State.input_getElem]
  exact (s.inputByte_writeBytes 0 bytes a).trans (dif_pos ⟨Nat.zero_le a, ha⟩)

variable {s bytes i rest}

/-- Placing bytes that fit `IB` and issuing an operation are two steps, the second of which runs it on the
placed bytes (45_payload_collaborators.md R150). -/
theorem place_and_issue (hs : s.host = [.writeInput 0 bytes, .issue (encode i)] ++ rest)
    (hfit : bytes.length ≤ ibCap s.params) :
    ∃ u, step s = .next u ∧ step u = exec i (s.placed bytes i rest) := by
  refine ⟨_, (step_of_writeInput hs).trans (State.hostWrite_of_fits ?_), ?_⟩
  · rwa [Nat.zero_add]
  · exact (step_of_issue rfl).trans (State.runCommand_of_decode (decode_encode i))

end Placed

/-! ## A builder ends in a build -/

/-- The two steps of a length-prefixed builder end in the frame of its payload, or in ValidationError where
the block does not take the command (41_frame_build.md R112). -/
theorem placed_frameBuildLP_ends {s : State} {cmd : Byte} {p : List Byte} {rest : List HostAction}
    (hp : p.length ≤ 1017)
    (hs : s.host = [.writeInput 0 p, .issue (encode (.frameBuildLP cmd (BitVec.ofNat 16 p.length)))] ++ rest) :
    ∃ u t, step s = .next u ∧ step u = .next t ∧ t.host = rest ∧
      (cmd ∈ s.params.cmdSet → t.x.status = 0 ∧ t.x.olen.toNat = p.length + 7 ∧
        t.outputBytes (p.length + 7) = withTrailer (headBytes cmd (BitVec.ofNat 16 p.length) ++ p)) ∧
      (cmd ∉ s.params.cmdSet → t.x.status = 0x41 ∧ SameOutput s t) := by
  have hcap : 1024 ≤ ibCap s.params := obCap_le_ibCap s.params
  obtain ⟨u, hplace, hissue⟩ := place_and_issue hs (by omega)
  by_cases hcmd : cmd ∈ s.params.cmdSet
  · have hbuild := hissue.trans (exec_frameBuildLP_of_input hcmd hp (State.placed_input ..))
    refine ⟨u, _, hplace, hbuild, rfl, fun _ => State.deliverFrame_reports _ ?_ (by omega), absurd hcmd⟩
    rw [List.length_append, headBytes_length]
    omega
  · have hbuild := hissue.trans (exec_frameBuildLP_of_not_mem hcmd)
    exact ⟨u, _, hplace, hbuild, rfl, fun h => absurd h hcmd, fun _ => ⟨rfl, fun _ => rfl⟩⟩

/-- The two steps of a structured-message builder end in the frame of its message, or in OversizeFrame where
no frame holds it, also where `IB` does not (41_frame_build.md R116, log entry 15). -/
theorem placed_frameBuildSD_ends {s : State} {m : List Byte} {rest : List HostAction} (hm : m.length < 65536)
    (hs : s.host = [.writeInput 0 (m.take (ibCap s.params)),
      .issue (encode (.frameBuildSD (BitVec.ofNat 16 m.length)))] ++ rest) :
    ∃ u t, step s = .next u ∧ step u = .next t ∧ t.host = rest ∧
      (m.length ≤ 1022 → t.x.status = 0 ∧ t.x.olen.toNat = m.length + 2 ∧
        t.outputBytes (m.length + 2) = withTrailer m) ∧
      (1022 < m.length → SameOutput s t ∧
        t.x = ⟨0x05, 0, 0, 0, 0, 0, 1024, BitVec.ofNat 32 (m.length + 2)⟩) := by
  have hcap : 1024 ≤ ibCap s.params := obCap_le_ibCap s.params
  obtain ⟨u, hplace, hissue⟩ := place_and_issue hs (List.length_take_le _ _)
  by_cases hfit : m.length ≤ 1022
  · rw [List.take_of_length_le (by omega)] at hissue
    have hbuild := hissue.trans (exec_frameBuildSD_of_input hfit (State.placed_input ..))
    exact ⟨u, _, hplace, hbuild, rfl, fun _ => State.deliverFrame_reports _ rfl (by omega),
      fun h => absurd hfit (Nat.not_le_of_lt h)⟩
  · have hn := length_operand_toNat hm
    have hbuild := hissue.trans (exec_frameBuildSD_of_lt (by omega))
    rw [hn] at hbuild
    exact ⟨u, _, hplace, hbuild, rfl, fun h => absurd h hfit, fun _ => ⟨fun _ => rfl, rfl⟩⟩

/-- Settles O50, from the ends of the two builds in the host's list of actions (log entries 1 and 15). -/
theorem buildersEndInABuild : Obligations.BuildersEndInABuild := by
  refine ⟨fun c r s rest => ⟨fun v => Payload.actions_of_build_error, fun p hp => ?_⟩,
    fun serialize c r s rest => ⟨fun v => Payload.actionsSD_of_check_error, fun cmd hcheck hlen => ?_⟩⟩
  · have hlen := (Payload.build_length hp).1
    exact ⟨_, Payload.actions_of_build_ok hp, placed_frameBuildLP_ends (by omega)⟩
  · exact ⟨_, Payload.actionsSD_of_check_ok hcheck hlen, placed_frameBuildSD_ends hlen⟩

end Sys2Proof.Machine
end

section
/-!
PROOFS. The error kinds and the parameters (60_exceptions.md R183 to R189, R194). The idea: one table,
`Fails`, lists the six ways the block's operations fail, each with its cause and the values it reports. An
operation that ends succeeds or raises an entry of the table, and an entry's cause forces its raise, so it
ends with a kind exactly when an entry of that kind applies (`statusKind_eq_code_iff`).
-/
namespace Sys2Proof.Machine

/-! ## The ways to fail -/

/-- The operation is a decode, of either variant, of a frame of `n` bytes. -/
def IsDecode (i : Instr) (n : Half) : Prop := i = .frameDecodeLP n ∨ i = .frameDecodeSD n

theorem IsDecode.len_eq {i : Instr} {n : Half} (h : IsDecode i n) : i.len = n := by
  rcases h with rfl | rfl <;> rfl

/-- A decode whose frame check fails ends in the state the check answers (42_frame_decode.md R130). -/
theorem IsDecode.eq_of_verify_error {i : Instr} {n : Half} {s t u : State} (hi : IsDecode i n)
    (h : exec i s = .next t) (hv : s.verifyFrame n.toNat = .error u) : t = u := by
  rcases hi with rfl | rfl
  · have hn : n.toNat ≤ 1024 := (exec_frameDecodeLP_next h).1
    cases h.symm.trans (exec_frameDecodeLP_of_verify_error hn hv)
    rfl
  · have hn : n.toNat ≤ 1024 := (exec_frameDecodeSD_next h).1
    cases h.symm.trans (exec_frameDecodeSD_of_verify_error hn hv)
    rfl

/-- The error kinds with their causes: the operation fails in `s` with this kind, sub-cause, expected and
actual value, and checksums (60_exceptions.md R183 to R188). -/
inductive Fails (s : State) : Instr → Kind → Sub → Nat → Nat → Option Checksums → Prop where
  | unknownCommand {cmd : Byte} {n : Half} (hcmd : cmd ∉ s.params.cmdSet) :
      Fails s (.frameBuildLP cmd n) .validationError .unknownCommand 0 cmd.toNat none
  | oversizeLP {cmd : Byte} {n : Half} (hcmd : cmd ∈ s.params.cmdSet) (hsize : 1024 < n.toNat + 7) :
      Fails s (.frameBuildLP cmd n) .oversizeFrame .noCause 1024 (n.toNat + 7) none
  | oversizeSD {n : Half} (hsize : 1024 < n.toNat + 2) :
      Fails s (.frameBuildSD n) .oversizeFrame .noCause 1024 (n.toNat + 2) none
  | tooShort {i : Instr} {n : Half} (hi : IsDecode i n) (hn : n.toNat < 2) :
      Fails s i .frameTooShort .noCause 2 n.toNat none
  | mismatch {i : Instr} {n : Half} (hi : IsDecode i n) (hn : 2 ≤ n.toNat)
      (hne : s.inputHalf (n.toNat - 2) ≠ crc16 (s.input (n.toNat - 2))) :
      Fails s i .checksumMismatch .noCause (crc16 (s.input (n.toNat - 2))).toNat
        (s.inputHalf (n.toNat - 2)).toNat
        (some ⟨crc16 (s.input (n.toNat - 2)), s.inputHalf (n.toNat - 2)⟩)
  | unparsed {n : Half} {e : ParseError} (hn : 2 ≤ n.toNat)
      (heq : s.inputHalf (n.toNat - 2) = crc16 (s.input (n.toNat - 2)))
      (hparse : parseRemainder s.params.cmdSet (s.input (n.toNat - 2)) = .error e) :
      Fails s (.frameDecodeLP n) .deserializationError e.sub e.exp e.act
        (some ⟨crc16 (s.input (n.toNat - 2)), crc16 (s.input (n.toNat - 2))⟩)

/-- The state `t` is the raise in `s` of an entry of the table, of the given kind (60_exceptions.md R189). -/
def RaisesFailure (i : Instr) (s t : State) (k : Kind) : Prop :=
  ∃ sub e a sums, Fails s i k sub e a sums ∧ t = s.raise k sub e a sums

theorem State.raise_status (s : State) (k : Kind) (sub : Sub) (e a : Nat) (sums : Option Checksums) :
    (s.raise k sub e a sums).x.status = statusWord k sub := rfl

/-- The codes of the kinds are different (60_exceptions.md R181). -/
theorem Kind.code_inj {k l : Kind} (h : k.code = l.code) : k = l := by
  revert h
  cases k <;> cases l <;> decide

/-- No kind has the code of success (10_state.md R29). -/
theorem Kind.code_ne_zero (k : Kind) : statusKind statusOk ≠ k.code := by
  cases k <;> decide

section Ends
variable {i : Instr} {s t : State} {k : Kind} {sub : Sub} {e a : Nat} {sums : Option Checksums}

/-- A decode's failed frame check is one of the two entries it can be. -/
theorem IsDecode.raisesFailure {n : Half} (hi : IsDecode i n) (hv : s.verifyFrame n.toNat = .error t) :
    ∃ k, RaisesFailure i s t k := by
  rcases State.verifyFrame_error hv with ⟨hn, rfl⟩ | ⟨hn, hne, rfl⟩
  · exact ⟨_, _, _, _, _, .tooShort hi hn, rfl⟩
  · exact ⟨_, _, _, _, _, .mismatch hi hn hne, rfl⟩

/-- An operation that ends succeeds or raises an entry of the table. -/
theorem exec_ok_or_raisesFailure (h : exec i s = .next t) :
    t.x.status = statusOk ∨ ∃ k, RaisesFailure i s t k := by
  cases i with
  | crcCompute n =>
    obtain ⟨_, rfl⟩ := exec_crcCompute_next h
    exact .inl rfl
  | frameBuildLP cmd n =>
    rcases exec_frameBuildLP_next h with ⟨hcmd, rfl⟩ | ⟨hcmd, hsize, rfl⟩ | ⟨_, _, rfl⟩
    · exact .inr ⟨_, _, _, _, _, .unknownCommand hcmd, rfl⟩
    · exact .inr ⟨_, _, _, _, _, .oversizeLP hcmd hsize, rfl⟩
    · exact .inl rfl
  | frameBuildSD n =>
    rcases exec_frameBuildSD_next h with ⟨hsize, rfl⟩ | ⟨_, rfl⟩
    · exact .inr ⟨_, _, _, _, _, .oversizeSD hsize, rfl⟩
    · exact .inl rfl
  | frameDecodeLP n =>
    obtain ⟨_, hv | ⟨sum, e, hv, hparse, rfl⟩ | ⟨_, _, _, _, rfl⟩⟩ := exec_frameDecodeLP_next h
    · exact .inr (IsDecode.raisesFailure (.inl rfl) hv)
    · obtain ⟨hn, heq, rfl⟩ := State.verifyFrame_ok hv
      exact .inr ⟨_, _, _, _, _, .unparsed hn heq hparse, rfl⟩
    · exact .inl rfl
  | frameDecodeSD n =>
    obtain ⟨_, hv | ⟨_, _, rfl⟩⟩ := exec_frameDecodeSD_next h
    · exact .inr (IsDecode.raisesFailure (.inr rfl) hv)
    · exact .inl rfl

/-- An entry whose cause holds is what the operation raises. -/
theorem Fails.eq_raise (hf : Fails s i k sub e a sums) (h : exec i s = .next t) : t = s.raise k sub e a sums := by
  cases hf with
  | unknownCommand hcmd =>
    cases h.symm.trans (exec_frameBuildLP_of_not_mem hcmd)
    rfl
  | oversizeLP hcmd hsize =>
    cases h.symm.trans (exec_frameBuildLP_of_lt hcmd (by omega))
    rfl
  | oversizeSD hsize =>
    cases h.symm.trans (exec_frameBuildSD_of_lt (by omega))
    rfl
  | tooShort hi hn => exact hi.eq_of_verify_error h (State.verifyFrame_of_lt hn)
  | mismatch hi hn hne => exact hi.eq_of_verify_error h (State.verifyFrame_of_ne hn hne)
  | unparsed hn heq hparse =>
    have hmax : _ ≤ 1024 := (exec_frameDecodeLP_next h).1
    cases h.symm.trans (exec_frameDecodeLP_of_parse_error hmax (State.verifyFrame_of_eq hn heq) hparse)
    rfl

/-- A failed operation raised an entry of the table. -/
theorem raisesFailure_of_status (h : exec i s = .next t) (hst : t.x.status ≠ 0) : ∃ k, RaisesFailure i s t k :=
  (exec_ok_or_raisesFailure h).resolve_left hst

/-- An operation that ends with a kind raised an entry of that kind. -/
theorem raisesFailure_of_kind (h : exec i s = .next t) (hk : statusKind t.x.status = k.code) :
    RaisesFailure i s t k := by
  obtain hok | ⟨l, sub, e, a, sums, hf, rfl⟩ := exec_ok_or_raisesFailure h
  · rw [hok] at hk
    exact absurd hk k.code_ne_zero
  · rw [State.raise_status, statusKind_statusWord] at hk
    obtain rfl := Kind.code_inj hk
    exact ⟨_, _, _, _, hf, rfl⟩

/-- An operation ends with a kind exactly when the table has an entry of that kind for it. -/
theorem statusKind_eq_code_iff (h : exec i s = .next t) (k : Kind) :
    statusKind t.x.status = k.code ↔ ∃ sub e a sums, Fails s i k sub e a sums := by
  constructor
  · intro hk
    obtain ⟨sub, e, a, sums, hf, _⟩ := raisesFailure_of_kind h hk
    exact ⟨sub, e, a, sums, hf⟩
  · rintro ⟨sub, e, a, sums, hf⟩
    rw [hf.eq_raise h, State.raise_status, statusKind_statusWord]

end Ends

/-! ## The remainders that do not parse -/

/-- A guarded answer is an error exactly when the guard fires or the rest is an error. -/
theorem exists_error_guard {ε α : Type} {p : Prop} [Decidable p] {e : ε} {x : Except ε α} :
    (∃ d, (if p then .error e else x) = .error d) ↔ p ∨ ∃ d, x = .error d := by
  by_cases hp : p
  · simp [hp]
  · simp [hp]

/-- An error of a guarded answer is the guard's, or the rest's where the guard does not fire. -/
theorem ite_of_error_guard {ε α : Type} {p q r : Prop} [Decidable p] {d e : ε} {x : Except ε α}
    (h : (if p then .error d else x) = .error e) (hguard : d = e → q) (hrest : x = .error e → r) :
    if p then q else r := by
  by_cases hp : p
  · rw [if_pos hp] at h ⊢
    exact hguard (Except.error.inj h)
  · rw [if_neg hp] at h ⊢
    exact hrest h

/-- A remainder does not parse exactly when it fails one of the five checks (42_frame_decode.md R132). -/
theorem State.parseRemainder_input_error_iff (s : State) (cmdSet : List Byte) (m : Nat) :
    (∃ e, parseRemainder cmdSet (s.input m) = .error e) ↔
      m < 5 ∨ s.inputByte 0 ≠ 0x47 ∨ s.inputByte 1 ≠ 0x01 ∨ s.inputByte 2 ∉ cmdSet ∨
        (be16 (s.inputByte 3) (s.inputByte 4)).toNat ≠ m - 5 := by
  simp only [State.parseRemainder_input, exists_error_guard, reduceCtorEq, exists_false, or_false]

/-- What a parse error puts in the registers is the status, the expected and the actual value of the first
check that fails (60_exceptions.md R186). -/
theorem State.parseRemainder_input_reports {s : State} {cmdSet : List Byte} {m : Nat} {e : ParseError}
    (h : parseRemainder cmdSet (s.input m) = .error e) :
    let F := s.inputByte
    let status := statusWord .deserializationError e.sub
    let exp := BitVec.ofNat 32 e.exp
    let act := BitVec.ofNat 32 e.act
    if m < 5 then status = 0x14 ∧ exp = 5 ∧ act = BitVec.ofNat 32 m
    else if F 0 ≠ 0x47 then status = 0x24 ∧ exp = 0x47 ∧ act = (F 0).setWidth 32
    else if F 1 ≠ 0x01 then status = 0x34 ∧ exp = 1 ∧ act = (F 1).setWidth 32
    else if F 2 ∉ cmdSet then status = 0x44 ∧ exp = 0 ∧ act = (F 2).setWidth 32
    else status = 0x54 ∧ exp = (be16 (F 3) (F 4)).setWidth 32 ∧ act = BitVec.ofNat 32 (m - 5) := by
  rw [State.parseRemainder_input] at h
  refine ite_of_error_guard h ?truncated fun h => ite_of_error_guard h ?header fun h =>
    ite_of_error_guard h ?version fun h => ite_of_error_guard h ?command fun h => ?length
  case truncated => rintro rfl; dsimp only; exact ⟨rfl, rfl, rfl⟩
  case header | version | command => rintro rfl; dsimp only; exact ⟨rfl, rfl, BitVec.ofNat_toNat ..⟩
  case length =>
    split at h
    case isTrue => cases h; dsimp only; exact ⟨rfl, BitVec.ofNat_toNat .., rfl⟩
    case isFalse => cases h

/-! ## The error kinds -/

/-- Settles O26: a failed operation raised an entry of the table, and a raise writes no output. -/
theorem failureLeavesOnlyResults : Obligations.FailureLeavesOnlyResults := by
  intro i s t h hst
  obtain ⟨_, _, _, _, _, _, rfl⟩ := raisesFailure_of_status h hst
  exact ⟨State.finish_sameSurroundings .., State.raise_ob .., rfl, rfl, rfl⟩

/-- Settles O31: the table has one entry of this kind. -/
theorem validationErrorOnlyForUnknownCommand : Obligations.ValidationErrorOnlyForUnknownCommand := by
  intro i s t h
  refine ⟨(statusKind_eq_code_iff h .validationError).trans ⟨?_, ?_⟩, ?_⟩
  · rintro ⟨_, _, _, _, hf⟩
    cases hf with
    | unknownCommand hcmd => exact ⟨_, _, rfl, hcmd⟩
  · rintro ⟨cmd, n, rfl, hcmd⟩
    exact ⟨_, _, _, _, .unknownCommand hcmd⟩
  · rintro cmd n rfl hcmd
    rw [(Fails.unknownCommand hcmd).eq_raise h]
    exact ⟨rfl, rfl, BitVec.ofNat_toNat .., rfl, rfl⟩

/-- Settles O32: the table has one entry of this kind, and a short frame fails its check in any state. -/
theorem frameTooShortBelowTwoBytes : Obligations.FrameTooShortBelowTwoBytes := by
  constructor
  · intro i s t h
    refine (statusKind_eq_code_iff h .frameTooShort).trans ⟨?_, ?_⟩
    · rintro ⟨_, _, _, _, hf⟩
      cases hf with
      | tooShort hi hn => exact ⟨_, hn, hi⟩
    · rintro ⟨n, hn, hi⟩
      exact ⟨_, _, _, _, .tooShort hi hn⟩
  · intro n s hn
    have hmax : n.toNat ≤ 1024 := by omega
    obtain ⟨t, ht, _, htx, _⟩ := reports_of_frameTooShort (fun _ => exec_frameDecodeLP_of_verify_error hmax) hn
    obtain ⟨u, hu, _, hux, _⟩ := reports_of_frameTooShort (fun _ => exec_frameDecodeSD_of_verify_error hmax) hn
    exact ⟨t, u, ht, hu, htx, hux.trans htx.symm⟩

/-- Settles O33: the table has one entry of this kind, which carries both checksums. -/
theorem checksumMismatchReportsBothValues : Obligations.ChecksumMismatchReportsBothValues := by
  intro i s t h
  refine ⟨(statusKind_eq_code_iff h .checksumMismatch).trans ⟨?_, ?_⟩, fun n hi hk => ?_⟩
  · rintro ⟨_, _, _, _, hf⟩
    cases hf with
    | mismatch hi hn hne => exact ⟨_, hi, hn, s.inputHalf_trailer hn ▸ hne⟩
  · rintro ⟨n, hi, hn, hne⟩
    exact ⟨_, _, _, _, .mismatch hi hn (s.inputHalf_trailer hn ▸ hne)⟩
  · obtain ⟨_, _, _, _, hf, rfl⟩ := raisesFailure_of_kind (k := .checksumMismatch) h hk
    cases hf with
    | mismatch hi' hn _ =>
      obtain rfl := hi'.len_eq.symm.trans (IsDecode.len_eq hi)
      rw [State.raise_x, failureResults_checksumMismatch, s.inputHalf_trailer hn]
      exact ⟨rfl, rfl, rfl, rfl, rfl⟩

/-- Settles O34: the table has one entry of this kind, which is the parse error of the remainder. -/
theorem deserializationErrorCausesInOrder : Obligations.DeserializationErrorCausesInOrder := by
  intro i s t h
  refine ⟨(statusKind_eq_code_iff h .deserializationError).trans ⟨?_, ?_⟩, ?_⟩
  · rintro ⟨_, _, _, _, hf⟩
    cases hf with
    | unparsed hn heq hparse =>
      exact ⟨_, rfl, hn, s.inputHalf_trailer hn ▸ heq, (s.parseRemainder_input_error_iff ..).mp ⟨_, hparse⟩⟩
  · rintro ⟨n, rfl, hn, heq, hfails⟩
    obtain ⟨e, hparse⟩ := (s.parseRemainder_input_error_iff ..).mpr hfails
    exact ⟨_, _, _, _, .unparsed hn (s.inputHalf_trailer hn ▸ heq) hparse⟩
  · rintro n rfl hk
    obtain ⟨_, _, _, _, hf, rfl⟩ := raisesFailure_of_kind (k := .deserializationError) h hk
    cases hf with
    | unparsed hn heq hparse => exact ⟨rfl, rfl, State.parseRemainder_input_reports hparse⟩

/-- A would-be frame size fits its register (60_exceptions.md R187). -/
theorem frameSize_toNat (n : Half) {k : Nat} (hk : k ≤ 7) : (BitVec.ofNat 32 (n.toNat + k)).toNat = n.toNat + k := by
  have hn := n.isLt
  rw [BitVec.toNat_ofNat]
  omega

/-- Settles O35: the table has two entries of this kind, one for each build. -/
theorem oversizeFrameOnlyFromBuilds : Obligations.OversizeFrameOnlyFromBuilds := by
  intro i s t h
  refine ⟨(statusKind_eq_code_iff h .oversizeFrame).trans ⟨?_, ?_⟩, fun hk => ?_⟩
  · rintro ⟨_, _, _, _, hf⟩
    cases hf with
    | oversizeLP hcmd hsize => exact .inl ⟨_, _, rfl, hcmd, hsize⟩
    | oversizeSD hsize => exact .inr ⟨_, rfl, hsize⟩
  · rintro (⟨cmd, n, rfl, hcmd, hsize⟩ | ⟨n, rfl, hsize⟩)
    · exact ⟨_, _, _, _, .oversizeLP hcmd hsize⟩
    · exact ⟨_, _, _, _, .oversizeSD hsize⟩
  · obtain ⟨_, _, _, _, hf, rfl⟩ := raisesFailure_of_kind (k := .oversizeFrame) h hk
    cases hf with
    | oversizeLP _ _ =>
      refine ⟨rfl, rfl, rfl, rfl, rfl, State.raise_ob .., ?_, fun _ hi => nomatch hi⟩
      rintro _ _ ⟨⟩
      exact frameSize_toNat _ (by decide)
    | oversizeSD _ =>
      refine ⟨rfl, rfl, rfl, rfl, rfl, State.raise_ob .., fun _ _ hi => (nomatch hi), ?_⟩
      rintro _ ⟨⟩
      exact frameSize_toNat _ (by decide)

/-! ## The parameters -/

theorem exec_params {i : Instr} {s t : State} (h : exec i s = .next t) : t.params = s.params := by
  obtain ⟨_, _, rfl, _⟩ := exec_finish h
  exact State.finish_params ..

/-- Settles O42, by the cases of a step. -/
theorem parametersNeverChange : Obligations.ParametersNeverChange := by
  intro s t h
  rcases step_next h with ⟨_, rfl⟩ | ⟨_, _, _, _, hwrite⟩ | ⟨_, _, hcopy⟩ | ⟨_, _, _, _, _, hexec⟩ | ⟨_, _, rfl⟩
  · rfl
  · obtain ⟨_, rfl⟩ := State.hostWrite_next hwrite
    rfl
  · obtain ⟨_, rfl⟩ := State.hostCopyOutput_next hcopy
    rfl
  · exact (exec_params hexec).trans (State.latchCommand_params ..)
  · exact State.hostReset_params _

end Sys2Proof.Machine
end
